-- ==== Sys2Proof/Word.lean ====
section
/-! DEFINITION. The word types of OWBT (spec/00_scope.md R10, 30_encoding.md R91, R94). Every value is unsigned. -/

namespace Sys2Proof

/-- A byte, which is also one serial character (R10, R51): bit 0 is the least significant. -/
abbrev Byte := BitVec 8

/-- A command word `CW` (R91): `OP` in bits 9 and 8, `DATA` in bits 7 to 0. -/
abbrev CommandWord := BitVec 10

/-- A response word `RW` (R94): `STATUS` in bits 11 to 9, `PRESENT` in bit 8, `DATA` in bits 7 to 0. -/
abbrev ResponseWord := BitVec 12

/-- A duration in microseconds. It appears only as an argument of a capability call: no rule depends on one (R256). -/
abbrev Micros := Nat

/-- The length of a register array of one byte exchange, `SLOTS` (R8, R22, R23). -/
abbrev slots : Nat := 8

/-- `TXBUF` and `RXBUF`: eight characters, index 0 first on the wire (R22, R23, R61). -/
abbrev Chars := Vector Byte slots

end Sys2Proof
end

