-- ==== Sys2Proof/Config.lean ====
section
/-! DEFINITION. The configuration record `CFG` (spec/00_scope.md R8, R9; 10_state.md R33), the values this hardware
takes, the open parameters, and the environment's choices (20_memory.md R12, R55 to R60, R66) with the free value that
makes them. -/

namespace Sys2Proof

/-- The bit rate of a capability (R30, R31): `other` is any rate that is neither of the two operating points. -/
inductive Rate where
  | slow
  | fast
  | other
  deriving DecidableEq, Repr, Inhabited

/-- The serial character frame (R98; D6, G1, G2): there is no parity bit. -/
structure Frame where
  startBits : Nat
  stopBits : Nat
  lsbFirst : Bool
  deriving DecidableEq, Repr

/-- `CFG` (R8, R33): read only to the block and to the host. -/
structure Cfg where
  slowRate : Nat
  fastRate : Nat
  resetLowMin : Micros
  resetChar : Byte
  slot1Char : Byte
  slot0Char : Byte
  nopull : Byte
  slotCount : Nat
  tDrain : Micros
  tPresence : Micros
  tResetWait : Micros
  drainBufLen : Nat
  presLoMask : Byte
  presHiMask : Byte
  slotReadTimeout : Option Micros
  initRateTx : Rate
  initRateRx : Rate
  skipAll : Byte
  frame : Frame
  deriving DecidableEq, Repr

/-! ### What the environment chooses -/

/-- The outcome of `SetRate` (R56, R59): `fail left` is a rejected change that leaves the rate `left` (U2, D29). -/
inductive SetRateChoice where
  | ok
  | fail (left : Rate)
  deriving DecidableEq, Repr, Inhabited

/-- The outcome of `MemWrite` (R55): `fail sent` put the first `sent` characters on the wire, at most all of them
(U3, D29); `waiting` is a call that has not returned yet (R214). -/
inductive WriteChoice where
  | ok
  | fail (sent : Nat)
  | waiting
  deriving DecidableEq, Repr, Inhabited

/-- The outcome of `MemRead` (R57): `arrive` returns the bytes as soon as enough have arrived and is a call that has not
returned until then (R214); `fail` and `timeout` remove `removed` bytes, at most the count asked for (U4, D29).
`timeout` is an outcome only where `SLOT_READ_TIMEOUT` is a duration and too few bytes have arrived (R204), and else reads
as `arrive`. -/
inductive ReadExactChoice where
  | arrive
  | fail (removed : Nat)
  | timeout (removed : Nat)
  deriving DecidableEq, Repr, Inhabited

/-- The outcome of `RxReadSome` (R58): `bytes n` delivers the first `n` bytes of `RXQ`, at most the buffer's length and
what is there; `fail` removes `removed` bytes, at most the buffer's length, and delivers none (U4, D29). -/
inductive ReadSomeChoice where
  | bytes (n : Nat)
  | timeout
  | fail (removed : Nat)
  deriving DecidableEq, Repr, Inhabited

/-- One move of the environment (R66): the bytes it appends to `RXQ` (R34, R35) while the outstanding call lasts, and
how that call turns out, one choice per kind of call: only the choice for the call that is outstanding is read. -/
structure EnvMove where
  arrivals : List Byte := []
  setRate : SetRateChoice := .ok
  write : WriteChoice := .ok
  readExact : ReadExactChoice := .arrive
  readSome : ReadSomeChoice := .timeout
  deriving DecidableEq, Repr, Inhabited

/-- One input from outside the block: a move of the environment, or a block reset (70_reset_and_hazards.md R240), which
can come in any phase (D25). Where it cuts a `MemWrite` that has not returned, the first `sent` characters of that write
have reached the wire, at most all of them, the last one perhaps in part: "the wire may be left in the middle of a
character". -/
inductive EnvInput where
  | move (m : EnvMove)
  | blockReset (sent : Nat)
  deriving DecidableEq, Repr

namespace Config

/-- FREE VALUE (log entry 1): `INIT_RATE_TX`, an open parameter that the platform decides (R8, R38; D18, U5). -/
opaque initRateTx : Rate

/-- FREE VALUE (log entry 1): `INIT_RATE_RX`, an open parameter that the platform decides (R8, R38; D18, U5). -/
opaque initRateRx : Rate

/-- FREE VALUE (log entry 2): the unconstrained environment (R66; D22, U1): its `n`-th move once the moves already
written down in the state are used up. -/
opaque environment : Nat → EnvMove

/-- `CFG` of this hardware (the column "value" of R8). -/
def owbt : Cfg where
  slowRate := 9600
  fastRate := 115200
  resetLowMin := 480
  resetChar := 0xF0
  slot1Char := 0xFF
  slot0Char := 0x00
  nopull := 0xFF
  slotCount := 8
  tDrain := 1000
  tPresence := 10000
  tResetWait := 2000
  drainBufLen := 8
  presLoMask := 0x0F
  presHiMask := 0xF0
  slotReadTimeout := none
  initRateTx := initRateTx
  initRateRx := initRateRx
  skipAll := 0xCC
  frame := { startBits := 1, stopBits := 1, lsbFirst := true }

end Config

end Sys2Proof
end

