-- ==== Sys2Proof/Syntax.lean ====
section
/-! DEFINITION. The commands of OWBT (spec/30_encoding.md R90) and the lines of a command script (R108). -/

namespace Sys2Proof

/-- The three commands, one per row of spec/opcode_table.json (R90). `DATA` is an operand of `WRITE_READ_BYTE` alone:
`RESET` and `READ_BYTE` ignore it (R93). -/
inductive Instr where
  /-- `RESET` (R150): bus reset and presence detection. -/
  | reset
  /-- `WRITE_READ_BYTE` (R180): exchange the byte `data`. -/
  | writeReadByte (data : Byte)
  /-- `READ_BYTE` (R186): exchange the all-recessive pattern. -/
  | readByte
  deriving DecidableEq, Repr

/-- The radix of a byte literal of a command script (R108): `0xNN`, `0bNNNNNNNN` or decimal. -/
inductive Radix where
  | hex
  | bin
  | dec
  deriving DecidableEq, Repr

/-- One command line of a script (R108). The literal is the number written, before the check that it is a byte. -/
inductive ScriptLine where
  | reset
  | writeReadByte (literal : Nat)
  | readByte
  deriving DecidableEq, Repr

end Sys2Proof
end

