-- ==== Sys2Proof/WellFormed.lean ====
section
/-! DEFINITION. The checks: of an instruction, of a script line (spec/30_encoding.md R108) and of a configuration
(00_scope.md R8, 70_reset_and_hazards.md R251). -/

namespace Sys2Proof

/-- Every instruction is well formed: all 256 operand values are legal (R93), and the operand's type has no others. -/
def Instr.wellFormed : Instr → Bool
  | .reset => true
  | .writeReadByte _ => true
  | .readByte => true

/-- A script line is well formed when its literal is "a literal 0 to 255" (R108). -/
def ScriptLine.wellFormed : ScriptLine → Bool
  | .reset => true
  | .writeReadByte n => n < 256
  | .readByte => true

/-- The constraints on `CFG`: eight slots (R8, R22), a drain buffer of positive length (R33), and a wait after the
reset character of more than one character period of ten bit times at the slow rate (R8, R156, R251). -/
def Cfg.wellFormed (c : Cfg) : Bool :=
  c.slotCount == slots && 0 < c.drainBufLen && 10 * 1000000 < c.tResetWait * c.slowRate

end Sys2Proof
end

