-- ==== Sys2Proof/Decode.lean ====
section
/-! DEFINITION. The decoder and the encoder of the command word (spec/30_encoding.md R91 to R93, R96). -/

namespace Sys2Proof

/-- Why a command word is not decoded. -/
inductive DecodeError where
  /-- `OP == 0b11` spells no command (R96). -/
  | reservedOp
  deriving DecidableEq, Repr

/-- `OP`, bits 9 and 8 of the command word (R91). -/
def CommandWord.op (w : CommandWord) : BitVec 2 := w.extractLsb' 8 2

/-- `DATA`, bits 7 to 0 of the command word (R91). -/
def CommandWord.data (w : CommandWord) : Byte := w.extractLsb' 0 8

/-- The command that a word spells (R92). `DATA` is read by `WRITE_READ_BYTE` alone (R93). -/
def decode (w : CommandWord) : Except DecodeError Instr :=
  if CommandWord.op w = 0b00#2 then .ok .reset
  else if CommandWord.op w = 0b01#2 then .ok (.writeReadByte (CommandWord.data w))
  else if CommandWord.op w = 0b10#2 then .ok .readByte
  else .error .reservedOp

/-- The opcode of a command (R92). -/
def Instr.op : Instr → BitVec 2
  | .reset => 0b00#2
  | .writeReadByte _ => 0b01#2
  | .readByte => 0b10#2

/-- The `DATA` field an assembler writes: the operand, and 0x00 where `DATA` is ignored (R93). -/
def Instr.dataField : Instr → Byte
  | .reset => 0x00#8
  | .writeReadByte d => d
  | .readByte => 0x00#8

/-- The canonical word of a command (R91, R93). -/
def encode (i : Instr) : CommandWord := i.op.setWidth 10 <<< 8 ||| i.dataField.setWidth 10

/-- The `match` column of spec/opcode_table.json (R92). -/
def Instr.matchBits : Instr → CommandWord
  | .reset => 0x000#10
  | .writeReadByte _ => 0x100#10
  | .readByte => 0x200#10

/-- The `mask` column of spec/opcode_table.json, the same in every row (R92). -/
def opMask : CommandWord := 0x300#10

/-- The ten bits of the command port, from an instruction whose bits are `w` (log entry 8): bits at and above `nbits`
are 0, and the port has no place for a bit above bit 9 (R91). -/
def tableWord (nbits w : Nat) : CommandWord := BitVec.ofNat 10 (w % 2 ^ nbits)

/-- What the decoder reads from an instruction numbered as spec/opcode_table.json numbers its bits. -/
def decodeTableWord (nbits w : Nat) : Option Instr :=
  match decode (tableWord nbits w) with
  | .ok i => some i
  | .error _ => none

end Sys2Proof
end

