-- ==== Sys2Proof/Machine/State.lean ====
section
/-! DEFINITION. The state of OWBT and of its surroundings, as plain data (spec/10_state.md), and the state after block
reset (R38). -/

namespace Sys2Proof.Machine

/-- The fourteen values of the phase register, the program counter of this hardware (R25). -/
inductive Phase where
  /-- `IDLE`: no command in progress. -/
  | idle
  | rstSlowTx
  | rstSlowRx
  | rstDrain
  | rstPulse
  | rstWait
  | rstSample
  | rstFastTx
  | rstFastRx
  | rstClassify
  | xchEncode
  | xchTx
  | xchRx
  | xchDecode
  deriving DecidableEq, Repr

/-- The capability a bit rate belongs to (R30, R31). -/
inductive Cap where
  | tx
  | rx
  deriving DecidableEq, Repr

/-- A capability call with its arguments (R11, R14, R55 to R60). The count of a `MemWrite` is the length of its list. -/
inductive Call where
  | setRate (cap : Cap) (r : Rate)
  | memWrite (v : List Byte)
  | memRead (n : Nat)
  | rxReadSome (len : Nat) (bound : Micros)
  | wait (t : Micros)
  deriving DecidableEq, Repr

/-- The outcome with which a call returned (R12). -/
inductive CallOutcome where
  | ok
  | bytes (bs : List Byte)
  | timeout
  | fail
  deriving DecidableEq, Repr

/-- One entry of the event history (R14): a capability call that was made and has returned. -/
structure Event where
  call : Call
  outcome : CallOutcome
  deriving DecidableEq, Repr

/-- A character handed to the transmitter and the bit rate it goes out at, the rate `TX_RATE` had (R55). -/
structure SentChar where
  char : Byte
  rate : Rate
  deriving DecidableEq, Repr

/-- The five values of `STATUS` that are produced (R95): `OK` and the four faults of the taxonomy (R200). -/
inductive Status where
  | ok
  | configurationFailed
  | transmitFailed
  | receiveFailed
  | receiveTimeout
  deriving DecidableEq, Repr

/-- The machine. The comment of each group says whose state it is. -/
structure State where
  -- the block (R21 to R25, R41)
  phase : Phase
  operand : Byte
  txbuf : Chars
  rxbuf : Chars
  resp : Option Byte
  drainbuf : List Byte
  -- the two capabilities (R30, R31, R34) and the transmit stream (R50)
  txRate : Rate
  rxRate : Rate
  rxq : List Byte
  txStream : List SentChar
  -- the host's side: the command words it will offer, in order (R27), and the response port (R38, R94)
  offers : List CommandWord
  response : Option ResponseWord
  -- the observable (R14, R36): bookkeeping that no step reads
  events : List Event
  responses : List ResponseWord
  -- the model's own: the inputs from outside written down so far, and the count of free moves used (log entry 2)
  inputs : List EnvInput
  freeMoves : Nat
  deriving DecidableEq, Repr

/-- Why a step ends the run with a fault: never. A fault of OWBT is a response (R206), so it is a next state, and a call
that does not return leaves the block waiting, "neither final nor faulted" (R214). Nobody raises one, which is safe. -/
inductive Fault where
  deriving DecidableEq, Repr

/-- Why a step has no meaning. -/
inductive Refusal where
  /-- Raised by an arm of `exec` whose instruction has no meaning yet. Safe: the run stops. -/
  | notModelled (mnemonic : String)
  /-- Raised by `step` when the host offers a word with `OP == 0b11`: "a model must refuse it" (R96, R215). Safe: the run
  is no run of OWBT. -/
  | reservedOpcode (word : CommandWord)
  deriving DecidableEq, Repr

/-- The state after block reset (R38, R240). `TX_RATE` and `RX_RATE` are the open parameters of the platform. The
buffers, which the spec leaves unspecified and unreadable, are 0 (log entry 3). `RXQ`, which may hold any stale bytes, is
empty (log entry 4). No response is pending; nothing is offered and nothing has come from outside (log entries 2, 9). -/
def State.reset : State where
  phase := .idle
  operand := 0x00
  txbuf := Vector.replicate slots 0x00
  rxbuf := Vector.replicate slots 0x00
  resp := none
  drainbuf := List.replicate Config.owbt.drainBufLen 0x00
  txRate := Config.owbt.initRateTx
  rxRate := Config.owbt.initRateRx
  rxq := []
  txStream := []
  offers := []
  response := none
  events := []
  responses := []
  inputs := []
  freeMoves := 0

end Sys2Proof.Machine
end

