-- ==== Sys2Proof/Machine/Flags.lean ====
section
/-! DEFINITION. What a flag would hold (spec/10_state.md R28): the presence decision and the status, carried in the
response word (30_encoding.md R94, R95). -/

namespace Sys2Proof.Machine

/-- `CLASSIFY(resp)` (R134): true for *Present*. The thresholds are read from `CFG` (R9). -/
def classify (c : Cfg) : Option Byte → Bool
  | none => false
  | some b =>
    if b &&& c.presLoMask ≠ 0 then false
    else if b &&& c.presHiMask = c.presHiMask then false
    else true

/-- The number of a status (R95). -/
def Status.code : Status → BitVec 3
  | .ok => 0
  | .configurationFailed => 1
  | .transmitFailed => 2
  | .receiveFailed => 3
  | .receiveTimeout => 4

/-- The response word, `STATUS << 9 | PRESENT << 8 | DATA` (R94; spec/95_test_vectors.md). -/
def responseWord (status : Status) (present : Bool) (data : Byte) : ResponseWord :=
  status.code.setWidth 12 <<< 9 ||| (BitVec.ofBool present).setWidth 12 <<< 8 ||| data.setWidth 12

/-- `STATUS`, bits 11 to 9 (R94). -/
def statusField (w : ResponseWord) : BitVec 3 := w.extractLsb' 9 3

/-- `PRESENT`, bit 8 (R94). -/
def presentField (w : ResponseWord) : Bool := w.getLsbD 8

/-- `DATA`, bits 7 to 0 (R94). -/
def dataField (w : ResponseWord) : Byte := w.extractLsb' 0 8

end Sys2Proof.Machine
end

