-- ==== Sys2Proof/Machine/Operands.lean ====
section
/-! DEFINITION. The bit codec (spec/40_bit_codec.md): operand bits to slot characters, readback characters to result
bits. Pure functions of their arguments and `CFG`. -/

namespace Sys2Proof.Machine

/-- `ENC_BIT(v)` (R130). -/
def encBit (c : Cfg) (v : Bool) : Byte := if v then c.slot1Char else c.slot0Char

/-- `ENC_BYTE(b)` (R131): slot `i` carries bit `i`, least significant first (R61, R106). -/
def encByte (c : Cfg) (b : Byte) : Chars :=
  #v[encBit c (b.getLsbD 0), encBit c (b.getLsbD 1), encBit c (b.getLsbD 2), encBit c (b.getLsbD 3),
    encBit c (b.getLsbD 4), encBit c (b.getLsbD 5), encBit c (b.getLsbD 6), encBit c (b.getLsbD 7)]

/-- `DEC_SLOT(r)` (R132): the comparison is with the constant `NOPULL`, never with what was sent. -/
def decSlot (c : Cfg) (r : Byte) : Bool := r == c.nopull

/-- `zext_8(DEC_SLOT(rx[i])) << i`: what slot `i` contributes to the result (R133). -/
def slotBit (c : Cfg) (r : Byte) (i : Nat) : Byte := (BitVec.ofBool (decSlot c r)).setWidth 8 <<< i

/-- `DEC_BYTE(rx)` (R133). -/
def decByte (c : Cfg) (rx : Chars) : Byte :=
  slotBit c rx[0] 0 ||| slotBit c rx[1] 1 ||| slotBit c rx[2] 2 ||| slotBit c rx[3] 3 |||
    slotBit c rx[4] 4 ||| slotBit c rx[5] 5 ||| slotBit c rx[6] 6 ||| slotBit c rx[7] 7

/-- The eight characters of a completed `MemRead(RX, 8)`, in the order received (R23, R184). -/
def charsOf (bs : List Byte) : Chars :=
  #v[bs.getD 0 0, bs.getD 1 0, bs.getD 2 0, bs.getD 3 0, bs.getD 4 0, bs.getD 5 0, bs.getD 6 0, bs.getD 7 0]

end Sys2Proof.Machine
end

