-- ==== Sys2Proof/Machine/Ops.lean ====
section
/-! DEFINITION. The named operations over the state: the inputs from outside, the capability primitives
(spec/20_memory.md section 2), accepting a command (10_state.md R27), responding (30_encoding.md R94), raising a fault
(60_exceptions.md R206) and block reset (70_reset_and_hazards.md R240). -/

namespace Sys2Proof.Machine

/-! ### The environment's moves (R66) -/

/-- The environment's next move: the next one written down in the state, else the free one (log entry 2). -/
def nextMove (s : State) : EnvMove :=
  match s.inputs with
  | .move m :: _ => m
  | _ => Config.environment s.freeMoves

/-- Use up the next move and append its arrivals to `RXQ` (R34): "The environment may append to `RXQ` at any moment". -/
def takeMove (s : State) : State :=
  match s.inputs with
  | .move m :: rest => { s with rxq := s.rxq ++ m.arrivals, inputs := rest }
  | _ =>
    { s with
      rxq := s.rxq ++ (Config.environment s.freeMoves).arrivals
      freeMoves := s.freeMoves + 1 }

/-! ### Control -/

/-- `phase <- P` (R11, R26). -/
def goto (p : Phase) (s : State) : State := { s with phase := p }

/-- Record a call that has returned (R14, R36). -/
def logEvent (call : Call) (outcome : CallOutcome) (s : State) : State :=
  { s with events := s.events ++ [{ call := call, outcome := outcome }] }

/-- `Respond(status, present, data)` (R94): presenting the response and setting `phase <- IDLE` are one step. -/
def respond (status : Status) (present : Bool) (data : Byte) (s : State) : State :=
  { s with
    phase := .idle
    response := some (responseWord status present data)
    responses := s.responses ++ [responseWord status present data] }

/-- `raise <Fault>` (R206): the fault response and `phase <- IDLE`, and nothing else. This is taking an exception; there
is no return from one (R210). -/
def raise (fault : Status) (s : State) : State := respond fault false 0x00#8 s

/-- Accept a command whose first phase is `p` (R26, R27). No response of it is pending (log entry 9). -/
def accept (p : Phase) (s : State) : State := { s with phase := p, response := none }

/-- `OPERAND <- v` (R21). -/
def setOperand (v : Byte) (s : State) : State := { s with operand := v }

/-- The host's next command word leaves the stream of words it holds, when it is accepted (R27). -/
def takeOffer (s : State) : State := { s with offers := s.offers.tail }

/-- Block reset (R38, R240): the block's own state takes its values of `State.reset` (log entry 3) and no response is
pending. It makes no capability call, so the rates, `RXQ` and the wire stay as the interrupted command left them (C14,
D25); what the host will offer, the observable and the inputs to come are not the block's. -/
def blockReset (s : State) : State :=
  { s with
    phase := State.reset.phase
    operand := State.reset.operand
    txbuf := State.reset.txbuf
    rxbuf := State.reset.rxbuf
    resp := State.reset.resp
    drainbuf := State.reset.drainbuf
    response := State.reset.response }

/-! ### The capability primitives (R55 to R60)

Each takes the environment's move `m`, returns how the call turned out and the state it left, and records the call in
the event history when it returns. A primitive that can wait answers `none` while the call has not returned. -/

/-- How a call without data returned. -/
inductive Ack where
  | ok
  | fail
  deriving DecidableEq, Repr

/-- How a read returned. -/
inductive ReadOutcome where
  | bytes (bs : List Byte)
  | timeout
  | fail
  deriving DecidableEq, Repr

/-- The rate of a capability becomes `r` (R30, R31). -/
def withRate (cap : Cap) (r : Rate) (s : State) : State :=
  match cap with
  | .tx => { s with txRate := r }
  | .rx => { s with rxRate := r }

/-- `SetRate(cap, r)` (R56, R59): it returns at once. After `Fail` the rate is the one the environment chose (D29). -/
def setRate (cap : Cap) (r : Rate) (m : EnvMove) (s : State) : Ack × State :=
  match m.setRate with
  | .ok => (.ok, logEvent (.setRate cap r) .ok (withRate cap r s))
  | .fail left => (.fail, logEvent (.setRate cap r) .fail (withRate cap left s))

/-- Put characters on the transmit stream at the present `TX_RATE`, in order (R50, R55). -/
def transmit (v : List Byte) (s : State) : State :=
  { s with txStream := s.txStream ++ v.map fun b => { char := b, rate := s.txRate } }

/-- `MemWrite(TX, n, v)` (R55). After `Fail` the first `sent` characters, at most all, are on the wire (D29). -/
def memWrite (v : List Byte) (m : EnvMove) (s : State) : Option (Ack × State) :=
  match m.write with
  | .ok => some (.ok, logEvent (.memWrite v) .ok (transmit v s))
  | .fail sent => some (.fail, logEvent (.memWrite v) .fail (transmit (v.take sent) s))
  | .waiting => none

/-- Remove the first `n` bytes of `RXQ` (R34, R65). -/
def dropRx (n : Nat) (s : State) : State := { s with rxq := s.rxq.drop n }

/-- A `MemRead(RX, n)` that is left to the arrival of its bytes: it returns once `n` are there, and until then it has not
returned (R57, R76). -/
def readArrived (n : Nat) (s : State) : Option (ReadOutcome × State) :=
  if n ≤ s.rxq.length then
    some (.bytes (s.rxq.take n), logEvent (.memRead n) (.bytes (s.rxq.take n)) (dropRx n s))
  else none

/-- `MemRead(RX, n)` (R57). `Timeout` is an outcome only where `SLOT_READ_TIMEOUT` is a duration, and only where it expires
before the `n` bytes have arrived (R76, R204); everywhere else the read is left to its bytes. After `Fail` and `Timeout` up
to `n` bytes are gone and none is delivered (D29). -/
def memRead (c : Cfg) (n : Nat) (m : EnvMove) (s : State) : Option (ReadOutcome × State) :=
  match m.readExact with
  | .arrive => readArrived n s
  | .fail removed => some (.fail, logEvent (.memRead n) .fail (dropRx (min removed n) s))
  | .timeout removed =>
    if c.slotReadTimeout ≠ none ∧ s.rxq.length < n then
      some (.timeout, logEvent (.memRead n) .timeout (dropRx (min removed n) s))
    else readArrived n s

/-- `RxReadSome(len, T)` (R58): it always returns. -/
def rxReadSome (len : Nat) (bound : Micros) (m : EnvMove) (s : State) : ReadOutcome × State :=
  match m.readSome with
  | .bytes n =>
    (.bytes (s.rxq.take (min n len)),
      logEvent (.rxReadSome len bound) (.bytes (s.rxq.take (min n len))) (dropRx (min n len) s))
  | .timeout => (.timeout, logEvent (.rxReadSome len bound) .timeout s)
  | .fail removed => (.fail, logEvent (.rxReadSome len bound) .fail (dropRx (min removed len) s))

/-- `Wait(T)` (R60): one outcome, and no state of the block changes. -/
def wait (t : Micros) (s : State) : State := logEvent (.wait t) .ok s

end Sys2Proof.Machine
end

