-- ==== Sys2Proof/Machine/Exchange.lean ====
section
/-! DEFINITION. The `WRITE_READ_BYTE` and `READ_BYTE` commands (spec/42_byte_exchange.md): their acceptance (10_state.md
R27) and the four phases they share (R182 to R185). -/

namespace Sys2Proof.Machine

/-- The meaning of `WRITE_READ_BYTE` (R180): on acceptance `OPERAND <- DATA; phase <- P_XCH_ENCODE` (R27), from where the
four phases below carry the command out, one a step. Not accepted outside `IDLE`: no effect (R27). -/
def execWriteReadByte (data : Byte) (s : State) : Host.Outcome State Fault Refusal :=
  match s.phase with
  | .idle => .next (accept .xchEncode (setOperand data s))
  | _ => .next s

/-- The meaning of `READ_BYTE` (R186): on acceptance `OPERAND <- 0xFF; phase <- P_XCH_ENCODE` (R27, R93). Not accepted
outside `IDLE`: no effect (R27). -/
def execReadByte (s : State) : Host.Outcome State Fault Refusal :=
  match s.phase with
  | .idle => .next (accept .xchEncode (setOperand 0xFF s))
  | _ => .next s

/-- `TXBUF <- v` (R22). -/
def setTxbuf (v : Chars) (s : State) : State := { s with txbuf := v }

/-- `RXBUF <- v` (R23). -/
def setRxbuf (v : Chars) (s : State) : State := { s with rxbuf := v }

/-- `P_XCH_ENCODE` (R182): no capability call, no fault. -/
def xchEncode (c : Cfg) (s : State) : State := goto .xchTx (setTxbuf (encByte c s.operand) s)

/-- `P_XCH_TX` (R183): the eight characters in one call, `TXBUF[0]` first. -/
def xchTx (s : State) : State :=
  match memWrite s.txbuf.toList (nextMove s) (takeMove s) with
  | some (.ok, t) => goto .xchRx t
  | some (.fail, t) => raise .transmitFailed t
  | none => takeMove s

/-- `P_XCH_RX` (R184): eight bytes or none; while the call has not returned the block waits here (R187, R214). -/
def xchRx (c : Cfg) (s : State) : State :=
  match memRead c slots (nextMove s) (takeMove s) with
  | some (.bytes bs, t) => goto .xchDecode (setRxbuf (charsOf bs) t)
  | some (.fail, t) => raise .receiveFailed t
  | some (.timeout, t) => raise .receiveTimeout t
  | none => takeMove s

/-- `P_XCH_DECODE` (R185): no capability call, no fault. -/
def xchDecode (c : Cfg) (s : State) : State := respond .ok false (decByte c s.rxbuf) s

end Sys2Proof.Machine
end

