-- ==== Sys2Proof/Machine/Reset.lean ====
section
/-! DEFINITION. The `RESET` command (spec/41_reset_sequencer.md): its acceptance (10_state.md R27) and its nine phases
(R152 to R160). A phase that makes a capability call uses up one move of the environment. -/

namespace Sys2Proof.Machine

/-- The meaning of `RESET` (R150): on acceptance `phase <- P_RST_SLOW_TX` (R27), from where the nine phases below carry
the command out, one a step. A command word is not accepted outside `IDLE` and then has no effect (R27). -/
def execReset (s : State) : Host.Outcome State Fault Refusal :=
  match s.phase with
  | .idle => .next (accept .rstSlowTx s)
  | _ => .next s

/-- `P_RST_SLOW_TX` (R152). -/
def rstSlowTx (s : State) : State :=
  match setRate .tx .slow (nextMove s) (takeMove s) with
  | (.ok, t) => goto .rstSlowRx t
  | (.fail, t) => raise .configurationFailed t

/-- `P_RST_SLOW_RX` (R153). -/
def rstSlowRx (s : State) : State :=
  match setRate .rx .slow (nextMove s) (takeMove s) with
  | (.ok, t) => goto .rstDrain t
  | (.fail, t) => raise .configurationFailed t

/-- A drain read delivers its bytes into `DRAINBUF`, from index 0 (R41, R154). -/
def fillDrainbuf (bs : List Byte) (s : State) : State :=
  { s with drainbuf := bs ++ s.drainbuf.drop bs.length }

/-- `P_RST_DRAIN` (R154): it loops while a read delivers at least one byte. -/
def rstDrain (c : Cfg) (s : State) : State :=
  match rxReadSome c.drainBufLen c.tDrain (nextMove s) (takeMove s) with
  | (.bytes (b :: bs), t) => goto .rstDrain (fillDrainbuf (b :: bs) t)
  | (.bytes [], t) => goto .rstPulse t
  | (.timeout, t) => goto .rstPulse t
  | (.fail, t) => goto .rstPulse t

/-- `P_RST_PULSE` (R155): exactly one character, the reset pulse. -/
def rstPulse (c : Cfg) (s : State) : State :=
  match memWrite [c.resetChar] (nextMove s) (takeMove s) with
  | some (.ok, t) => goto .rstWait t
  | some (.fail, t) => raise .transmitFailed t
  | none => takeMove s

/-- `P_RST_WAIT` (R156). -/
def rstWait (c : Cfg) (s : State) : State :=
  goto .rstSample (wait c.tResetWait (takeMove s))

/-- `RESP <- r` (R24). -/
def setResp (r : Option Byte) (s : State) : State := { s with resp := r }

/-- `P_RST_SAMPLE` (R157): at most one byte is taken, and no outcome is a fault (R162). -/
def rstSample (c : Cfg) (s : State) : State :=
  match rxReadSome 1 c.tPresence (nextMove s) (takeMove s) with
  | (.bytes bs, t) => goto .rstFastTx (setResp bs.head? t)
  | (.timeout, t) => goto .rstFastTx (setResp none t)
  | (.fail, t) => goto .rstFastTx (setResp none t)

/-- `P_RST_FAST_TX` (R158). -/
def rstFastTx (s : State) : State :=
  match setRate .tx .fast (nextMove s) (takeMove s) with
  | (.ok, t) => goto .rstFastRx t
  | (.fail, t) => raise .configurationFailed t

/-- `P_RST_FAST_RX` (R159). -/
def rstFastRx (s : State) : State :=
  match setRate .rx .fast (nextMove s) (takeMove s) with
  | (.ok, t) => goto .rstClassify t
  | (.fail, t) => raise .configurationFailed t

/-- `P_RST_CLASSIFY` (R160): no capability call, no fault. -/
def rstClassify (c : Cfg) (s : State) : State := respond .ok (classify c s.resp) 0x00#8 s

end Sys2Proof.Machine
end

