-- ==== Sys2Proof/Machine/Dispatch.lean ====
section
/-! DEFINITION. One arm per command. -/

namespace Sys2Proof.Machine

def exec (i : Instr) (s : State) : Host.Outcome State Fault Refusal :=
  match i with
  | .reset => Sys2Proof.Machine.execReset s
  | .writeReadByte data => Sys2Proof.Machine.execWriteReadByte data s
  | .readByte => Sys2Proof.Machine.execReadByte s

end Sys2Proof.Machine
end

