-- ==== Sys2Proof/Machine/Sequencer.lean ====
section
/-! DEFINITION. The sequencer: the step of the phase it is at (spec/10_state.md R25, R26), which capability call is
outstanding there (20_memory.md R64, R71), which command word is next, and when a block reset is due. -/

namespace Sys2Proof.Machine

/-- The step of the phase the block is in. In `IDLE`, with no command accepted, the block only waits (R240); the
environment may append to `RXQ` meanwhile (R34). -/
def phaseStep (c : Cfg) (s : State) : State :=
  match s.phase with
  | .idle => takeMove s
  | .rstSlowTx => rstSlowTx s
  | .rstSlowRx => rstSlowRx s
  | .rstDrain => rstDrain c s
  | .rstPulse => rstPulse c s
  | .rstWait => rstWait c s
  | .rstSample => rstSample c s
  | .rstFastTx => rstFastTx s
  | .rstFastRx => rstFastRx s
  | .rstClassify => rstClassify c s
  | .xchEncode => xchEncode c s
  | .xchTx => xchTx s
  | .xchRx => xchRx c s
  | .xchDecode => xchDecode c s

/-- The capability call of the phase the block is in, outstanding until it returns (R71); `none` in `IDLE` and in the
three phases that make no call (R160, R182, R185). -/
def outstandingCall (c : Cfg) (s : State) : Option Call :=
  match s.phase with
  | .idle => none
  | .rstSlowTx => some (.setRate .tx .slow)
  | .rstSlowRx => some (.setRate .rx .slow)
  | .rstDrain => some (.rxReadSome c.drainBufLen c.tDrain)
  | .rstPulse => some (.memWrite [c.resetChar])
  | .rstWait => some (.wait c.tResetWait)
  | .rstSample => some (.rxReadSome 1 c.tPresence)
  | .rstFastTx => some (.setRate .tx .fast)
  | .rstFastRx => some (.setRate .rx .fast)
  | .rstClassify => none
  | .xchEncode => none
  | .xchTx => some (.memWrite s.txbuf.toList)
  | .xchRx => some (.memRead slots)
  | .xchDecode => none

/-- The command word the block takes next: the first one the host holds, and only in `IDLE` (R27). There is no stored
program to fetch from (R73). -/
def fetchWord (s : State) : Option CommandWord :=
  match s.phase with
  | .idle => s.offers.head?
  | _ => none

/-- An input from outside that is a block reset. -/
def isBlockReset : EnvInput → Bool
  | .move _ => false
  | .blockReset _ => true

/-- The next input from outside is a block reset: it comes in any phase, between two steps (R240, D25). -/
def resetDue (s : State) : Bool :=
  match s.inputs with
  | .blockReset _ :: _ => true
  | _ => false

/-- How many characters of an outstanding write are on the wire when the block reset that is due cuts it (R240). -/
def cutCount (s : State) : Nat :=
  match s.inputs with
  | .blockReset sent :: _ => sent
  | _ => 0

/-- The outstanding call is cut after `sent` characters, where it is a write (R240, D25). It has not returned, so it is no
entry of the event history (log entry 12); a call that is no write leaves nothing behind. -/
def cutCall (c : Cfg) (sent : Nat) (s : State) : State :=
  match outstandingCall c s with
  | some (.memWrite v) => transmit (v.take sent) s
  | _ => s

/-- The next input from outside has been taken. -/
def dropInput (s : State) : State := { s with inputs := s.inputs.tail }

end Sys2Proof.Machine
end

