-- ==== Sys2Proof/Machine/Step.lean ====
section
/-! DEFINITION. One step of the machine, and how the host's check places a command. -/

namespace Sys2Proof.Machine

/-- One step: a block reset that is due, which cuts the outstanding call (R240); else, in `IDLE` with a command offered, the acceptance of that command
(R27), or the refusal of a reserved word (R96); else the step of the phase the block is in (R26). -/
def step (s : State) : Host.Outcome State Fault Refusal :=
  if resetDue s then .next (blockReset (cutCall Config.owbt (cutCount s) (dropInput s)))
  else
    match fetchWord s with
    | none => .next (phaseStep Config.owbt s)
    | some w =>
      match decode w with
      | .ok i => exec i (takeOffer s)
      | .error .reservedOp => .refused (.reservedOpcode w)

/-- `s` with a command word placed where the very next step takes it: the block idle, the word the first one the host
holds, and no block reset due before it (log entry 10). -/
def State.withFetchWord (s : State) (nbits w : Nat) : State :=
  { s with
    phase := .idle
    offers := tableWord nbits w :: s.offers
    inputs := s.inputs.dropWhile isBlockReset }

end Sys2Proof.Machine
end

