-- ==== Sys2Proof/Machine/Serial.lean ====
section
/-! DEFINITION. The serial character on the wire (spec/30_encoding.md R98, 20_memory.md R62), the wire law (R67), and the
derived figures of 70_reset_and_hazards.md R256. No step reads any of these. -/

namespace Sys2Proof.Machine

/-- The eight data bits of a character in wire order (R62, R98): true is high. -/
def dataLevels (f : Frame) (b : Byte) : List Bool :=
  let bits := [b.getLsbD 0, b.getLsbD 1, b.getLsbD 2, b.getLsbD 3, b.getLsbD 4, b.getLsbD 5, b.getLsbD 6, b.getLsbD 7]
  if f.lsbFirst then bits else bits.reverse

/-- The line level of each bit time of a character, in time order: start bits low, data bits, stop bits high (R98). -/
def lineLevels (f : Frame) (b : Byte) : List Bool :=
  List.replicate f.startBits false ++ dataLevels f b ++ List.replicate f.stopBits true

/-- How many bit times the line is low from the start of the character: its leading low pulse (R98, R104). -/
def leadingLow (f : Frame) (b : Byte) : Nat := ((lineLevels f b).takeWhile (! ·)).length

/-- The bit times of a character period (R98, R256). -/
def charBits (f : Frame) : Nat := f.startBits + slots + f.stopBits

/-- A span of bit times in nanoseconds, rounded down (R256). -/
def bitTimesNs (n rate : Nat) : Nat := n * 1000000000 / rate

/-- `WIRE_AND` for one slot (R67): the readback `r` of the transmitted `t` has no bit that `t` has not. -/
def wireAnd (t r : Byte) : Bool := r &&& ~~~t == 0

/-- The reset character holds the line low for at least `T_RESET_LOW_MIN` at the slow rate (R8, R104). -/
def resetPulseLongEnough (c : Cfg) : Bool :=
  c.resetLowMin * 1000 ≤ bitTimesNs (leadingLow c.frame c.resetChar) c.slowRate

end Sys2Proof.Machine
end

