-- ==== Sys2Proof/Machine/Echo.lean ====
section
/-! DEFINITION. The premises `WIRE_AND` and `ECHO` (spec/20_memory.md R67, R68) over a run, which is given by the states in
which its steps are taken. They speak of what the environment does; the block does not know them, and no step reads
them. -/

namespace Sys2Proof.Machine

/-- The step in `s` takes a move of the environment: it carries on the outstanding call, or waits in `IDLE` with nothing
offered. -/
def takesMove (s : State) : Bool :=
  !resetDue s && (fetchWord s).isNone && (s.phase = .idle || (outstandingCall Config.owbt s).isSome)

/-- The bytes that the environment appends to `RXQ` in the step in `s` (R34). -/
def arrivalsAt (s : State) : List Byte := if takesMove s then (nextMove s).arrivals else []

/-- The characters of the `MemWrite` that the step in `s` carries on or cuts, and that may be on the wire by its end. -/
def writingAt (s : State) : List Byte :=
  match outstandingCall Config.owbt s with
  | some (.memWrite v) => v
  | _ => []

/-- The characters that the step in `s` hands to the transmitter (R55), or that a write it cuts has sent (R240). -/
def sentAt (s : State) : List SentChar :=
  match step s with
  | .next t => t.txStream.drop s.txStream.length
  | .fault _ => []
  | .refused _ => []

/-- The states in which the first `n` steps from `s` are taken. -/
def path : Nat → State → List State
  | 0, _ => []
  | n + 1, s =>
    s ::
      match step s with
      | .next t => path n t
      | .fault _ => []
      | .refused _ => []

/-- The bytes appended to `RXQ` over a run, in order. -/
def pathArrivals (p : List State) : List Byte := p.flatMap arrivalsAt

/-- The characters transmitted over a run, in order. -/
def pathSent (p : List State) : List SentChar := p.flatMap sentAt

/-- No byte is appended before the write of its character began: where `sent` characters are out and `got` bytes have come
so far, the arrivals of each step are at most the characters out and those being written. -/
def noneEarly (sent got : Nat) : List State → Bool
  | [] => true
  | s :: p =>
    got + (arrivalsAt s).length ≤ sent + (writingAt s).length &&
      noneEarly (sent + (sentAt s).length) (got + (arrivalsAt s).length) p

/-- Premise `ECHO` (R68) over a run that begins with no readback owed: byte `k` appended to `RXQ` is the readback of
character `k` transmitted, none before its write began, none missing at the end, and nothing else. The rule's deadline of
one character period is the end of the run, since the model has no clock (log entry 28). -/
def echo (p : List State) : Bool := noneEarly 0 0 p && (pathArrivals p).length == (pathSent p).length

/-- Premise `WIRE_AND` (R67) over such a run: each readback has no bit that its character has not. -/
def wireLaw (p : List State) : Bool := ((pathSent p).zip (pathArrivals p)).all fun x => wireAnd x.1.char x.2

end Sys2Proof.Machine
end

