-- ==== Sys2Proof/Machine/EnvRef.lean ====
section
/-! DEFINITION. The reference environment `ENV_REF` (spec/20_memory.md R69), in which the vectors of
95_test_vectors.md run. It chooses the moves of the environment; the block does not know it. -/

namespace Sys2Proof.Machine

/-- `ENV_REF`: the pull script still to come, one byte per character the block will transmit (a script that has run out
pulls nothing), and the failure switches, the numbers of the capability calls of the run that fail, counted from 1. -/
structure EnvRef where
  pulls : List Byte
  failing : List Nat
  deriving DecidableEq, Repr

/-- The readbacks of the characters `v` under the pull script `pulls` (R69): `v[k] & m_j`. -/
def readbacks (pulls v : List Byte) : List Byte := v.mapIdx fun k b => b &&& pulls.getD k 0xFF

/-- The move with which `ENV_REF` answers the outstanding call (R69). A switch makes the call fail with nothing sent and
nothing removed, as in the vectors P6 and P7, and leaves a rejected rate at `OTHER` (log entry 11). -/
def refMove (e : EnvRef) (s : State) : EnvMove :=
  if e.failing.contains (s.events.length + 1) then
    { setRate := .fail .other, write := .fail 0, readExact := .fail 0, readSome := .fail 0 }
  else
    match outstandingCall Config.owbt s with
    | some (.memWrite v) => { arrivals := readbacks e.pulls v }
    | some (.rxReadSome len _) =>
      { readSome := if s.rxq.isEmpty then .timeout else .bytes (min len s.rxq.length) }
    | _ => {}

/-- The pull script after the outstanding call: one byte used for each character that is transmitted. -/
def refNext (e : EnvRef) (s : State) : EnvRef :=
  if e.failing.contains (s.events.length + 1) then e
  else
    match outstandingCall Config.owbt s with
    | some (.memWrite v) => { e with pulls := e.pulls.drop v.length }
    | _ => e

/-- The inputs as `ENV_REF` has them where no move is taken: its writes return in the step that makes them, so a block reset
that is due finds no character of a write on the wire. -/
def refReset : List EnvInput → List EnvInput
  | .blockReset _ :: rest => .blockReset 0 :: rest
  | inputs => inputs

/-- The state in which a step is taken in the environment `ENV_REF`: where the step takes a move, `ENV_REF` makes it. In
`IDLE` with nothing offered that move appends nothing, as in `ENV_REF` only a write does (R69). -/
def refState (e : EnvRef) (s : State) : State :=
  if takesMove s then { s with inputs := .move (refMove e s) :: s.inputs }
  else { s with inputs := refReset s.inputs }

/-- One step of the machine in the environment `ENV_REF`. -/
def refStep (e : EnvRef) (s : State) : EnvRef × Host.Outcome State Fault Refusal :=
  (if takesMove s then refNext e s else e, step (refState e s))

/-- `n` steps in the environment `ENV_REF`, stopping at a refusal. -/
def refRun : Nat → EnvRef → State → EnvRef × Host.Outcome State Fault Refusal
  | 0, e, s => (e, .next s)
  | n + 1, e, s =>
    match refStep e s with
    | (e', .next s') => refRun n e' s'
    | (e', o) => (e', o)

/-- The states in which the steps of `refRun n e s` are taken. -/
def refPath : Nat → EnvRef → State → List State
  | 0, _, _ => []
  | n + 1, e, s =>
    refState e s ::
      match refStep e s with
      | (e', .next s') => refPath n e' s'
      | _ => []

end Sys2Proof.Machine
end

