-- ==== Sys2Proof/Machine/Script.lean ====
section
/-! DEFINITION. Command scripts (spec/30_encoding.md R108, R109): reading one line of text, and the command word it
assembles to. Text is a list of characters. -/

namespace Sys2Proof.Machine

/-- The value of a digit, capital or small. -/
def digitValue (ch : Char) : Option Nat :=
  if '0' ≤ ch ∧ ch ≤ '9' then some (ch.toNat - '0'.toNat)
  else if 'A' ≤ ch ∧ ch ≤ 'F' then some (ch.toNat - 'A'.toNat + 10)
  else if 'a' ≤ ch ∧ ch ≤ 'f' then some (ch.toNat - 'a'.toNat + 10)
  else none

/-- The base of a radix. -/
def radixBase : Radix → Nat
  | .hex => 16
  | .bin => 2
  | .dec => 10

/-- A run of digits, at least one, read in a base, `acc` read before it. -/
def readDigits (base acc : Nat) : List Char → Option Nat
  | [] => none
  | [ch] =>
    match digitValue ch with
    | some d => if d < base then some (acc * base + d) else none
    | none => none
  | ch :: rest =>
    match digitValue ch with
    | some d => if d < base then readDigits base (acc * base + d) rest else none
    | none => none

/-- A literal: `0xNN`, `0bNNNNNNNN` or decimal (R108). -/
def readLiteral : List Char → Option Nat
  | '0' :: 'x' :: rest => readDigits (radixBase .hex) 0 rest
  | '0' :: 'b' :: rest => readDigits (radixBase .bin) 0 rest
  | text => readDigits (radixBase .dec) 0 text

/-- The part of a line before the comment that `;` starts (R108). -/
def stripComment (text : List Char) : List Char := text.takeWhile (· ≠ ';')

/-- The words of a line, between spaces. -/
def wordsOf : List Char → List (List Char)
  | [] => []
  | ' ' :: rest => [] :: wordsOf rest
  | ch :: rest =>
    match wordsOf rest with
    | [] => [[ch]]
    | w :: ws => (ch :: w) :: ws

/-- What a line of a script says. -/
inductive ReadLine where
  /-- Nothing: the line holds only spaces, if anything, and perhaps a comment. R108 says nothing of such a line; that it is
  no command and not an error is the model's choice, log entry 22. -/
  | blank
  /-- One command (R108: "one command per line"). -/
  | command (line : ScriptLine)
  /-- No line of the script syntax. -/
  | malformed
  deriving DecidableEq, Repr

/-- Read one line of a script (R108). A line without words, and the spacing, are log entry 22. -/
def readLine (text : List Char) : ReadLine :=
  match (wordsOf (stripComment text)).filter (· ≠ []) with
  | [] => .blank
  | [w] =>
    if w = ['R', 'E', 'S', 'E', 'T'] then .command .reset
    else if w = ['R', 'E', 'A', 'D', '_', 'B', 'Y', 'T', 'E'] then .command .readByte
    else .malformed
  | [w, v] =>
    if w = ['W', 'R', 'I', 'T', 'E', '_', 'R', 'E', 'A', 'D', '_', 'B', 'Y', 'T', 'E'] then
      match readLiteral v with
      | some n => if n < 256 then .command (.writeReadByte n) else .malformed
      | none => .malformed
    else .malformed
  | _ => .malformed

/-- The command a well-formed line stands for (R108). -/
def ScriptLine.instr : ScriptLine → Option Instr
  | .reset => some .reset
  | .writeReadByte n => if n < 256 then some (.writeReadByte (BitVec.ofNat 8 n)) else none
  | .readByte => some .readByte

/-- The command word of a line (R93: canonical words). -/
def assemble (l : ScriptLine) : Option CommandWord := (ScriptLine.instr l).map encode

end Sys2Proof.Machine
end

