-- ==== Sys2Proof/Safety.lean ====
section
/-! DEFINITION. The terms claims are stated in: busy, stuck, the end of a run, the base design's end, and the
invariants of the machine. -/

namespace Sys2Proof.Machine

/-- `BUSY` (R29). -/
def busy (s : State) : Bool := s.phase ≠ .idle

/-- In this phase the outstanding call of `s` does not return on the environment's next move (R214). -/
def callWaits (c : Cfg) (s : State) : Bool :=
  match s.phase with
  | .rstPulse => (memWrite [c.resetChar] (nextMove s) (takeMove s)).isNone
  | .xchTx => (memWrite s.txbuf.toList (nextMove s) (takeMove s)).isNone
  | .xchRx => (memRead c slots (nextMove s) (takeMove s)).isNone
  | _ => false

/-- The most bytes that a call takes from `RXQ` (R64). -/
def askedBy : Option Call → Nat
  | some (.memRead n) => n
  | some (.rxReadSome len _) => len
  | some (.setRate _ _) => 0
  | some (.memWrite _) => 0
  | some (.wait _) => 0
  | none => 0

/-- The bytes that an `RxReadSome` of at most `len` bytes delivers from the queue `q` (R58). -/
def delivered (len : Nat) (choice : ReadSomeChoice) (q : List Byte) : List Byte :=
  match choice with
  | .bytes n => q.take (min n len)
  | .timeout => []
  | .fail _ => []

/-- The queue that an `RxReadSome` of at most `len` bytes leaves of `q` (R58; D29). -/
def leftBy (len : Nat) (choice : ReadSomeChoice) (q : List Byte) : List Byte :=
  match choice with
  | .bytes n => q.drop (min n len)
  | .timeout => q
  | .fail n => q.drop (min n len)

/-- The queue after the drain reads with the moves `ms`, each of which delivers at least one byte, stale or just arrived
(R154); `none` where one of them delivers nothing. -/
def drained (c : Cfg) (q : List Byte) : List EnvMove → Option (List Byte)
  | [] => some q
  | m :: ms =>
    if delivered c.drainBufLen m.readSome (q ++ m.arrivals) = [] then none
    else drained c (leftBy c.drainBufLen m.readSome (q ++ m.arrivals)) ms

/-- `n` steps of the machine. -/
def run (n : Nat) (s : State) : Host.Outcome State Fault Refusal := Host.Core.run core n s

/-- The end of a run (R249): the host has no further command to offer and the block is idle. -/
def runEnded (s : State) : Bool := s.phase = .idle && s.offers.isEmpty

/-- The base design ends the run here (R208): the last response has a status other than `OK`. -/
def baseDesignEnds (s : State) : Bool :=
  match s.response with
  | some w => statusField w ≠ 0
  | none => false

/-- The phases of a bus reset at which both rates are slow (R32, R207). -/
def slowPhase : Phase → Bool
  | .rstDrain | .rstPulse | .rstWait | .rstSample | .rstFastTx => true
  | _ => false

/-- Where a bus reset stands, its rates are what its earlier phases made them (R32, R152, R153, R158, R159). -/
def ratesFollowPhase (s : State) : Prop :=
  (s.phase = .rstSlowRx → s.txRate = .slow) ∧
  (slowPhase s.phase = true → s.txRate = .slow ∧ s.rxRate = .slow) ∧
  (s.phase = .rstFastRx → s.txRate = .fast ∧ s.rxRate = .slow) ∧
  (s.phase = .rstClassify → s.txRate = .fast ∧ s.rxRate = .fast)

/-- The transmit alphabet (R111). -/
def inAlphabet (b : Byte) : Bool := b == 0xFF || b == 0x00 || b == 0xF0

/-- Every character ever given to the transmitter is of the alphabet, and every element of `TXBUF` is a slot character
(R22, R111). -/
def alphabetClosed (s : State) : Prop :=
  (∀ x ∈ s.txStream, inAlphabet x.char = true) ∧ (∀ b ∈ s.txbuf.toList, b = 0xFF ∨ b = 0x00)

/-- A response word that is produced (R95, R97): a status 0 to 4, and nothing but zeros beside a fault. -/
def legalResponse (w : ResponseWord) : Bool :=
  (statusField w).toNat ≤ 4 && (statusField w == 0 || (presentField w == false && dataField w == 0))

/-- Every response presented so far is one that is produced, and so is the one pending. -/
def responsesLegal (s : State) : Prop :=
  (∀ w ∈ s.responses, legalResponse w = true) ∧ (∀ w ∈ s.response.toList, legalResponse w = true)

/-- `DRAINBUF` has the length of the drain buffer (R41). -/
def drainbufSized (s : State) : Prop := s.drainbuf.length = Config.owbt.drainBufLen

/-- No response is pending while a command is in progress (R27, R94, R249). -/
def silentWhileBusy (s : State) : Prop := s.phase ≠ .idle → s.response = none

/-- `TXBUF` holds the characters of the operand from its encoding to the end of the exchange (R22, R182, R183). -/
def txbufEncodes (s : State) : Prop :=
  s.phase = .xchTx ∨ s.phase = .xchRx ∨ s.phase = .xchDecode → s.txbuf = encByte Config.owbt s.operand

/-- An entry of the event history is one of the calls of R52 and R64 with an outcome that call has (R12, R57, R58); the
characters go out as the reset character alone or as one encoded byte (R111). -/
def eventLegal (e : Event) : Prop :=
  match e.call with
  | .setRate _ r => r ≠ .other ∧ (e.outcome = .ok ∨ e.outcome = .fail)
  | .memWrite v =>
    (v = [0xF0] ∨ ∃ b, v = (encByte Config.owbt b).toList) ∧ (e.outcome = .ok ∨ e.outcome = .fail)
  | .memRead n => n = 8 ∧ (e.outcome = .fail ∨ ∃ bs, e.outcome = .bytes bs ∧ bs.length = 8)
  | .rxReadSome len bound =>
    ((len = 8 ∧ bound = 1000) ∨ (len = 1 ∧ bound = 10000)) ∧
      (e.outcome = .timeout ∨ e.outcome = .fail ∨ ∃ bs, e.outcome = .bytes bs ∧ bs.length ≤ len)
  | .wait t => t = 2000 ∧ e.outcome = .ok

/-- Everything outside the block is the same in `s` and `t`, and so are the observable and the inputs to come: they differ
at most in the five buffers of R21 to R24 and R41, which are "dead" between commands (R20). -/
def agreeOutside (s t : State) : Prop :=
  t = { s with operand := t.operand, txbuf := t.txbuf, rxbuf := t.rxbuf, resp := t.resp, drainbuf := t.drainbuf }

/-- Two runs that stopped the same way, in states that agree outside the block. -/
def sameEnd : Host.Outcome State Fault Refusal → Host.Outcome State Fault Refusal → Prop
  | .next s, .next t => agreeOutside s t
  | .fault f, .fault g => f = g
  | .refused r, .refused q => r = q
  | _, _ => False

/-- The phase that may follow each phase in one step (R26): itself where a call waits or the drain loops, the next phase
of the same command, or `IDLE` on a response. -/
def mayFollow : Phase → List Phase
  | .idle => [.idle]
  | .rstSlowTx => [.rstSlowRx, .idle]
  | .rstSlowRx => [.rstDrain, .idle]
  | .rstDrain => [.rstDrain, .rstPulse]
  | .rstPulse => [.rstPulse, .rstWait, .idle]
  | .rstWait => [.rstSample]
  | .rstSample => [.rstFastTx]
  | .rstFastTx => [.rstFastRx, .idle]
  | .rstFastRx => [.rstClassify, .idle]
  | .rstClassify => [.idle]
  | .xchEncode => [.xchTx]
  | .xchTx => [.xchTx, .xchRx, .idle]
  | .xchRx => [.xchRx, .xchDecode, .idle]
  | .xchDecode => [.idle]

/-- The invariant every step keeps. -/
structure Inv (s : State) : Prop where
  history : ∀ e ∈ s.events, eventLegal e
  rates : ratesFollowPhase s
  alphabet : alphabetClosed s
  responses : responsesLegal s
  drainbuf : drainbufSized s
  silent : silentWhileBusy s
  txbuf : txbufEncodes s

end Sys2Proof.Machine
end

