-- ==== Sys2Proof/Certificates/Slice0/Obligations.lean ====
section
/-! DEFINITION. The statements for the provers. Each docstring names the rules of spec/ a statement formalises, and what
in it is the spec's own decision or the model's choice. -/

open Sys2Proof Sys2Proof.Machine

/-! ### Encodings -/

/-- The words of spec/30_encoding.md section 1 (the numbering is the spec's decision D2; `DATA` is ignored where D4 says
so), each word written out bit by bit. -/
def Obligations.CommandWordsDecode : Prop :=
  decode 0b0000000000#10 = .ok .reset ∧ decode 0b0010100111#10 = .ok .reset ∧
  decode 0b0111001100#10 = .ok (.writeReadByte 0b11001100#8) ∧
  decode 0b0100000001#10 = .ok (.writeReadByte 0b00000001#8) ∧
  decode 0b1000000000#10 = .ok .readByte ∧ decode 0b1011000011#10 = .ok .readByte ∧
  decode 0b1100000000#10 = .error .reservedOp ∧ decode 0b1111111111#10 = .error .reservedOp

/-- Decode and encode agree, on every instruction and on every word (30_encoding.md section 1; D2, D4). A word that
decodes meets its row's match and mask, and every word that meets a row's match and mask decodes to that row. -/
def Obligations.DecodeEncodeAgree : Prop :=
  (∀ i : Instr, i.wellFormed = true → decode (encode i) = .ok i) ∧
  (∀ (w : CommandWord) (i : Instr), decode w = .ok i → w &&& opMask = i.matchBits) ∧
  (∀ w : CommandWord, w &&& opMask = 0x000#10 → decode w = .ok .reset) ∧
  (∀ (w : CommandWord) (d : Byte), decode w = .ok (.writeReadByte d) ↔ w = encode (.writeReadByte d)) ∧
  (∀ w : CommandWord, w &&& opMask = 0x200#10 → decode w = .ok .readByte)

/-- A response word read back by its fields (30_encoding.md section 1; the layout and the codes are decision D3): no two
responses share a word. -/
def Obligations.ResponseFieldsReadBack : Prop :=
  (∀ (st : Status) (p : Bool) (d : Byte),
    statusField (responseWord st p d) = st.code ∧ presentField (responseWord st p d) = p ∧
    dataField (responseWord st p d) = d) ∧
  (∀ st st' : Status, st.code = st'.code → st = st') ∧
  (∀ st : Status, st.code.toNat ≤ 4)

/-- The command of each script line by name, the word it assembles to and that the word decodes to that command; a literal
above 255 is no line and assembles to nothing (30_encoding.md section 5, section 1; the syntax is decision D27, the
canonical words decision D4). -/
def Obligations.ScriptLinesAssemble : Prop :=
  (ScriptLine.instr .reset = some .reset ∧ assemble .reset = some 0x000#10 ∧ decode 0x000#10 = .ok .reset) ∧
  (ScriptLine.instr .readByte = some .readByte ∧ assemble .readByte = some 0x200#10 ∧
    decode 0x200#10 = .ok .readByte) ∧
  (∀ n : Nat, n < 256 →
    ScriptLine.instr (.writeReadByte n) = some (.writeReadByte (BitVec.ofNat 8 n)) ∧
    assemble (.writeReadByte n) = some (0x100#10 + BitVec.ofNat 10 n) ∧
    decode (0x100#10 + BitVec.ofNat 10 n) = .ok (.writeReadByte (BitVec.ofNat 8 n))) ∧
  (∀ n : Nat, 256 ≤ n → ScriptLine.instr (.writeReadByte n) = none ∧ assemble (.writeReadByte n) = none)

/-- Reading a script line (30_encoding.md section 5; decision D27): what follows `;` has no effect, nor have spaces before
the command; a literal `0xNN` in capital or small digits, `0bNNNNNNNN` or decimal reads as its value, and as the operand of
`WRITE_READ_BYTE` up to 255; only well-formed lines are read as commands. The spacing and the number of digits are log
entry 22. -/
def Obligations.ScriptLinesRead : Prop :=
  (∀ text c : List Char, readLine (text ++ ';' :: c) = readLine text) ∧
  (∀ text : List Char, readLine (' ' :: text) = readLine text) ∧
  readLine "RESET".toList = .command .reset ∧ readLine "READ_BYTE".toList = .command .readByte ∧
  (∀ (text : List Char) (n : Nat), readLiteral text = some n →
    readLine ("WRITE_READ_BYTE ".toList ++ text) = if n < 256 then .command (.writeReadByte n) else .malformed) ∧
  (∀ (text : List Char) (l : ScriptLine), readLine text = .command l → l.wellFormed = true) ∧
  "0123456789ABCDEF".toList.map digitValue = (List.range 16).map some ∧
  "abcdef".toList.map digitValue = [some 10, some 11, some 12, some 13, some 14, some 15] ∧
  (∀ (d e : Char) (x y : Nat), digitValue d = some x → digitValue e = some y →
    readLiteral ['0', 'x', d, e] = some (16 * x + y)) ∧
  (∀ bits : List Bool, bits ≠ [] →
    readLiteral ('0' :: 'b' :: bits.map fun b => if b then '1' else '0') =
      some (bits.foldl (fun acc b => 2 * acc + b.toNat) 0)) ∧
  (∀ n : Nat, n < 256 → readLiteral (Nat.toDigits 10 n) = some n)

/-! ### The bit codec and the classifier -/

/-- `ENC_BIT` and `ENC_BYTE` (R130, R131): bit `i` chooses the character of slot `i`; the corner cases and the source's own
example; different bytes have different codes. -/
def Obligations.EncodeByteSlots : Prop :=
  (encBit Config.owbt true = 0xFF ∧ encBit Config.owbt false = 0x00) ∧
  (∀ (v : Bool) (i : Nat), i < 8 → (encBit Config.owbt v).getLsbD i = v) ∧
  (encByte Config.owbt 0x00 = Vector.replicate 8 0x00 ∧ encByte Config.owbt 0xFF = Vector.replicate 8 0xFF ∧
    (encByte Config.owbt 0b00000001#8).toList = [0xFF, 0x00, 0x00, 0x00, 0x00, 0x00, 0x00, 0x00]) ∧
  (∀ (c : Cfg) (b : Byte) (i : Nat) (h : i < 8),
    (encByte c b)[i] = if b.getLsbD i then c.slot1Char else c.slot0Char) ∧
  (∀ a b : Byte, encByte Config.owbt a = encByte Config.owbt b → a = b) ∧
  (∀ b : Byte, ∀ x ∈ (encByte Config.owbt b).toList, x = 0x00 ∨ x = 0xFF)

/-- `DEC_SLOT` (R103, R132): bit 1 for the one value 0xFF, bit 0 for the other 255. -/
def Obligations.DecodeSlotSentinel : Prop :=
  (∀ (c : Cfg) (r : Byte), decSlot c r = true ↔ r = c.nopull) ∧
  (∀ r : Byte, decSlot Config.owbt r = true ↔ r = 0xFF)

/-- `DEC_BYTE` (R133): bit `i` is decided by the readback of slot `i` alone. -/
def Obligations.DecodeByteBits : Prop :=
  (∀ (c : Cfg) (rx : Chars) (i : Nat) (h : i < 8), (decByte c rx).getLsbD i = decSlot c rx[i]) ∧
  (∀ (rx : Chars), (∀ b ∈ rx.toList, b = 0xFF) → decByte Config.owbt rx = 0xFF) ∧
  (∀ (rx : Chars), (∀ b ∈ rx.toList, b ≠ 0xFF) → decByte Config.owbt rx = 0x00) ∧
  (∀ b : Byte, ∃ rx : Chars, decByte Config.owbt rx = b)

/-- Round trip (40_bit_codec.md section 4), for any two slot characters of which the logical-1 character is the sentinel
and the logical-0 character is not. -/
def Obligations.CodecRoundTrip : Prop :=
  ∀ c : Cfg, c.slot1Char = c.nopull → c.slot0Char ≠ c.nopull → ∀ b : Byte, decByte c (encByte c b) = b

/-- Pull-down (40_bit_codec.md section 4): under the wire law the result is the operand with the pulled bits cleared; a
slot in which 0 was sent decodes to 0 whether or not a device pulled. -/
def Obligations.PulledSlotsClearBits : Prop :=
  ∀ (b : Byte) (m rx : Chars),
    (∀ (i : Nat) (h : i < 8), rx[i] = (encByte Config.owbt b)[i] &&& m[i]) →
    ∀ (i : Nat) (h : i < 8), (decByte Config.owbt rx).getLsbD i = (b.getLsbD i && m[i] == 0xFF)

/-- Under `WIRE_AND` no bit of the result is set that was not sent; without it one can be (40_bit_codec.md section 4). -/
def Obligations.WireLawBoundsResult : Prop :=
  (∀ (b : Byte) (rx : Chars),
    (∀ (i : Nat) (h : i < 8), wireAnd (encByte Config.owbt b)[i] rx[i] = true) →
    decByte Config.owbt rx &&& ~~~b = 0) ∧
  (∃ (b : Byte) (rx : Chars), decByte Config.owbt rx &&& ~~~b ≠ 0)

/-- `CLASSIFY` (R134): the general rule, for any thresholds; what it is with those of this hardware; and the only bytes that
fail both tests. -/
def Obligations.ClassifyRule : Prop :=
  (∀ c : Cfg, classify c none = false) ∧
  (∀ (c : Cfg) (b : Byte),
    classify c (some b) = true ↔ b &&& c.presLoMask = 0 ∧ b &&& c.presHiMask ≠ c.presHiMask) ∧
  (∀ b : Byte, classify Config.owbt (some b) = true ↔ b.extractLsb' 0 4 = 0#4 ∧ b.extractLsb' 4 4 ≠ 0xF#4) ∧
  (∀ b : Byte, b &&& Config.owbt.presLoMask ≠ 0 ∧ b &&& Config.owbt.presHiMask = Config.owbt.presHiMask ↔
    0xF1 ≤ b.toNat)

/-- The presence classes (R105): the fifteen *Present* values, and every other of the 256 bytes, and no byte, *Absent*. -/
def Obligations.PresentValues : Prop :=
  (∀ b : Byte, classify Config.owbt (some b) = true ↔
    b ∈ [0x00, 0x10, 0x20, 0x30, 0x40, 0x50, 0x60, 0x70, 0x80, 0x90, 0xA0, 0xB0, 0xC0, 0xD0, 0xE0]) ∧
  classify Config.owbt none = false ∧
  ((List.range 256).countP fun n => classify Config.owbt (some (BitVec.ofNat 8 n))) = 15 ∧
  ((List.range 256).countP fun n => (BitVec.ofNat 8 n).extractLsb' 0 4 != 0#4) = 240 ∧
  ((List.range 256).countP fun n => !classify Config.owbt (some (BitVec.ofNat 8 n))) = 241

/-- The reset character (30_encoding.md sections 2 and 4; D5; that a character has one start bit, eight data bits, the
least significant first, and one stop bit is D6 and log entry 26): the one byte whose character is low for exactly its
first five bit times and high for the rest, which at the slow rate of D7 is at least `T_RESET_LOW_MIN`. The configuration
is well formed: the wait after it is longer than a character (D9) and the drain buffer holds a byte (D11). The values are
those of log entry 24. -/
def Obligations.ResetCharacterPulse : Prop :=
  (∀ b : Byte, lineLevels Config.owbt.frame b =
    List.replicate 5 false ++ List.replicate 5 true ↔ b = Config.owbt.resetChar) ∧
  resetPulseLongEnough Config.owbt = true ∧ Config.owbt.wellFormed = true

/-! ### The step of the machine -/

/-- A step runs the decoded command: in `IDLE`, with no block reset due, the first word the host holds is taken and is
executed (10_state.md section 3; D19). -/
def Obligations.StepRunsDecodedCommand : Prop :=
  ∀ (s : State) (w : CommandWord) (rest : List CommandWord) (i : Instr),
    s.phase = .idle → (∀ k, s.inputs.head? ≠ some (.blockReset k)) → s.offers = w :: rest → decode w = .ok i →
    step s = exec i { s with offers := rest }

/-- What a step does where it takes no command: the block reset that is due, the wait in `IDLE` with nothing offered, or
the step of the phase (10_state.md section 3, 70_reset_and_hazards.md section 1; D25; that a block reset comes as an input,
with what it leaves of the call it cuts, is log entry 12). -/
def Obligations.StepElsewhere : Prop :=
  (∀ (s : State) (k : Nat) (rest : List EnvInput), s.inputs = .blockReset k :: rest →
    step s = .next (blockReset (cutCall Config.owbt k { s with inputs := rest }))) ∧
  (∀ s : State, (∀ k, s.inputs.head? ≠ some (.blockReset k)) → s.phase = .idle → s.offers = [] →
    step s = .next (takeMove s)) ∧
  (∀ s : State, (∀ k, s.inputs.head? ≠ some (.blockReset k)) → s.phase ≠ .idle →
    step s = .next (phaseStep Config.owbt s))

/-- A word placed for the host's check is the next thing that runs, in every state (the placing is log entry 10). -/
def Obligations.PlacedWordRuns : Prop :=
  ∀ (s : State) (nbits w : Nat) (i : Instr), decodeTableWord nbits w = some i →
    step (s.withFetchWord nbits w) =
      exec i { s with phase := .idle, inputs := s.inputs.dropWhile isBlockReset }

/-- The machine stops where a reserved word is taken in `IDLE` (30_encoding.md section 1, 93 U13; D4; commands are taken in
`IDLE` only, 10_state.md section 3 and D19), and nowhere else (20_memory.md section 5: the rules are total over outcomes).
That the word is refused when it is taken, and not while it waits at a busy block, is the model's choice, log entry 27;
that no step ends in a fault of the model is log entry 21. -/
def Obligations.StopsExactlyOnReservedWords : Prop :=
  (∀ s : State,
    (∃ t, step s = .next t) ∨
    (∃ w rest, s.phase = .idle ∧ s.offers = w :: rest ∧ w &&& opMask = 0x300#10 ∧
      step s = .refused (.reservedOpcode w))) ∧
  (∀ (s : State) (w : CommandWord) (rest : List CommandWord),
    s.phase = .idle → (∀ k, s.inputs.head? ≠ some (.blockReset k)) → s.offers = w :: rest → w &&& opMask = 0x300#10 →
    step s = .refused (.reservedOpcode w))

/-- A command offered outside `IDLE` is not accepted, is not stored and has no effect (10_state.md section 3; D19): the
step does not depend on what the host holds, and leaves it as it is. -/
def Obligations.BusyIgnoresOffers : Prop :=
  ∀ (s t : State) (held : List CommandWord), s.phase ≠ .idle → step s = .next t →
    t.offers = s.offers ∧ step { s with offers := held } = .next { t with offers := held }

/-- `phase` changes only along the edges of `mayFollow` (10_state.md section 3). -/
def Obligations.PhaseFollowsSequence : Prop :=
  ∀ (c : Cfg) (s : State), (phaseStep c s).phase ∈ mayFollow s.phase

/-- The block never reads the observable (10_state.md R36's derivation; section 7): a step from a state with another
history does the same and adds the same entries. -/
def Obligations.HistoryNeverRead : Prop :=
  ∀ (s t : State) (es : List Event) (rs : List ResponseWord) (xs : List SentChar), step s = .next t →
    ∃ (es' : List Event) (rs' : List ResponseWord) (xs' : List SentChar),
      t.events = s.events ++ es' ∧ t.responses = s.responses ++ rs' ∧ t.txStream = s.txStream ++ xs' ∧
      step { s with events := es, responses := rs, txStream := xs } =
        .next { t with events := es ++ es', responses := rs ++ rs', txStream := xs ++ xs' }

/-! ### The commands -/

/-- Acceptance of each command in `IDLE`, whatever the rest of the state is, with its frame: everything but the phase, the
response port and, for a byte exchange, `OPERAND` is unchanged (10_state.md section 3, D19; clearing the response port is
the model's choice, log entry 9). -/
def Obligations.AcceptanceInIdle : Prop :=
  ∀ s : State, s.phase = .idle →
    exec .reset s = .next { s with phase := .rstSlowTx, response := none } ∧
    (∀ d : Byte, exec (.writeReadByte d) s = .next { s with phase := .xchEncode, operand := d, response := none }) ∧
    exec .readByte s = .next { s with phase := .xchEncode, operand := 0xFF, response := none }

/-- Outside `IDLE` a command is turned away with none of its effect (10_state.md section 3; D19). -/
def Obligations.CommandTurnedAwayWhenBusy : Prop :=
  ∀ (i : Instr) (s : State), s.phase ≠ .idle → exec i s = .next s

/-- `RESET` completes (41_reset_sequencer.md sections 1 and 3): accepted in any idle state, whatever the rates and `RXQ`
are, and given drain reads that deliver, stale bytes or bytes just arrived, then one that delivers nothing, with the other
calls succeeding, it ends with status `OK`, the presence decision of the byte that the presence read takes, both rates
fast, and `7 + k` calls for `k` drain reads. `q` is the queue after the drain reads that deliver, `q6` the queue at the
presence read. What it does not touch is unchanged. One step for each phase is log entry 5, that a call's arrivals come
before its bytes are taken log entry 6. -/
def Obligations.ResetCompletes : Prop :=
  ∀ (s : State) (m1 m2 : EnvMove) (drains : List EnvMove) (m3 m4 m5 m6 m7 m8 : EnvMove) (rest : List EnvInput)
    (q q6 : List Byte),
    s.phase = .idle →
    s.inputs = ([m1, m2] ++ drains ++ [m3, m4, m5, m6, m7, m8]).map .move ++ rest →
    (∀ k, rest.head? ≠ some (.blockReset k)) →
    m1.setRate = .ok → m2.setRate = .ok →
    drained Config.owbt (s.rxq ++ m1.arrivals ++ m2.arrivals) drains = some q →
    delivered 8 m3.readSome (q ++ m3.arrivals) = [] →
    m4.write = .ok →
    q6 = leftBy 8 m3.readSome (q ++ m3.arrivals) ++ m4.arrivals ++ m5.arrivals ++ m6.arrivals →
    m7.setRate = .ok → m8.setRate = .ok →
    ∃ t u : State,
      exec .reset s = .next t ∧ t = { s with phase := .rstSlowTx, response := none } ∧
      run (9 + drains.length) t = .next u ∧
      u.phase = .idle ∧ u.txRate = .fast ∧ u.rxRate = .fast ∧
      u.resp = (delivered 1 m6.readSome q6).head? ∧
      u.rxq = leftBy 1 m6.readSome q6 ++ m7.arrivals ++ m8.arrivals ∧
      u.response = some (responseWord .ok (classify Config.owbt u.resp) 0x00#8) ∧
      u.responses = s.responses ++ [responseWord .ok (classify Config.owbt u.resp) 0x00#8] ∧
      u.events.length = s.events.length + (7 + (drains.length + 1)) ∧
      u.txStream = s.txStream ++ [{ char := 0xF0, rate := .slow }] ∧
      u.operand = s.operand ∧ u.txbuf = s.txbuf ∧ u.rxbuf = s.rxbuf ∧ u.offers = s.offers ∧
      u.inputs = rest ∧ u.freeMoves = s.freeMoves

/-- `WRITE_READ_BYTE` completes (42_byte_exchange.md sections 1 and 3): accepted in any idle state, with the write sent
and eight bytes there to read, it ends with the whole state as given. The four steps are log entry 5; that the read returns
once its bytes are there is log entry 13. -/
def Obligations.WriteReadByteCompletes : Prop :=
  ∀ (s : State) (d : Byte) (m1 m2 : EnvMove) (rest : List EnvInput) (q sent : List Byte),
    s.phase = .idle → s.inputs = .move m1 :: .move m2 :: rest → (∀ k, rest.head? ≠ some (.blockReset k)) →
    m1.write = .ok → m2.readExact = .arrive →
    q = s.rxq ++ m1.arrivals ++ m2.arrivals → 8 ≤ q.length → sent = (encByte Config.owbt d).toList →
    ∃ t : State,
      exec (.writeReadByte d) s = .next t ∧ t = { s with phase := .xchEncode, operand := d, response := none } ∧
      run 4 t = .next
        { s with
          operand := d
          txbuf := encByte Config.owbt d
          rxbuf := charsOf (q.take 8)
          rxq := q.drop 8
          txStream := s.txStream ++ sent.map fun x => { char := x, rate := s.txRate }
          inputs := rest
          response := some (responseWord .ok false (decByte Config.owbt (charsOf (q.take 8))))
          responses := s.responses ++ [responseWord .ok false (decByte Config.owbt (charsOf (q.take 8)))]
          events := s.events ++
            [{ call := .memWrite sent, outcome := .ok }, { call := .memRead 8, outcome := .bytes (q.take 8) }] }

/-- `READ_BYTE` completes (42_byte_exchange.md sections 2 and 3): as the exchange of eight logical-1 characters (log entries 5 and
13 as there). -/
def Obligations.ReadByteCompletes : Prop :=
  ∀ (s : State) (m1 m2 : EnvMove) (rest : List EnvInput) (q : List Byte),
    s.phase = .idle → s.inputs = .move m1 :: .move m2 :: rest → (∀ k, rest.head? ≠ some (.blockReset k)) →
    m1.write = .ok → m2.readExact = .arrive → q = s.rxq ++ m1.arrivals ++ m2.arrivals → 8 ≤ q.length →
    ∃ t : State,
      exec .readByte s = .next t ∧ t = { s with phase := .xchEncode, operand := 0xFF, response := none } ∧
      run 4 t = .next
        { s with
          operand := 0xFF
          txbuf := Vector.replicate 8 0xFF
          rxbuf := charsOf (q.take 8)
          rxq := q.drop 8
          txStream := s.txStream ++ List.replicate 8 { char := 0xFF, rate := s.txRate }
          inputs := rest
          response := some (responseWord .ok false (decByte Config.owbt (charsOf (q.take 8))))
          responses := s.responses ++ [responseWord .ok false (decByte Config.owbt (charsOf (q.take 8)))]
          events := s.events ++
            [{ call := .memWrite (List.replicate 8 0xFF), outcome := .ok },
              { call := .memRead 8, outcome := .bytes (q.take 8) }] }

/-- `READ_BYTE` is `WRITE_READ_BYTE 0xFF` (30_encoding.md section 5, 42_byte_exchange.md section 2): the same next state, and
offered as the word 0x200 or 0x1FF no step tells them apart; nor with any `DATA` in the first, which is ignored (30 section
1; D4, log entry 23). -/
def Obligations.ReadByteIsExchangeOfOnes : Prop :=
  (∀ s : State, exec .readByte s = exec (.writeReadByte 0xFF) s) ∧
  (∀ (s : State) (w : CommandWord) (rest : List CommandWord), s.phase = .idle →
    (∀ k, s.inputs.head? ≠ some (.blockReset k)) → w &&& opMask = 0x200#10 →
    step { s with offers := w :: rest } = step { s with offers := 0x1FF#10 :: rest })

/-! ### The phases of a bus reset -/

/-- The four rate-changing phases when the change succeeds (41_reset_sequencer.md section 2; that the transmit side comes
first is decision D10): the call is made whatever the rate was. -/
def Obligations.RateChangePhases : Prop :=
  ∀ (c : Cfg) (s : State), (nextMove s).setRate = .ok →
    (s.phase = .rstSlowTx → phaseStep c s = { takeMove s with
      phase := .rstSlowRx, txRate := .slow
      events := s.events ++ [{ call := .setRate .tx .slow, outcome := .ok }] }) ∧
    (s.phase = .rstSlowRx → phaseStep c s = { takeMove s with
      phase := .rstDrain, rxRate := .slow
      events := s.events ++ [{ call := .setRate .rx .slow, outcome := .ok }] }) ∧
    (s.phase = .rstFastTx → phaseStep c s = { takeMove s with
      phase := .rstFastRx, txRate := .fast
      events := s.events ++ [{ call := .setRate .tx .fast, outcome := .ok }] }) ∧
    (s.phase = .rstFastRx → phaseStep c s = { takeMove s with
      phase := .rstClassify, rxRate := .fast
      events := s.events ++ [{ call := .setRate .rx .fast, outcome := .ok }] })

/-- The four rate-changing phases when the change is rejected: `ConfigurationFailed` ends the command at once, and the
rate is whatever the environment left (60_exceptions.md section 4; D14, D29; the response number is D3). -/
def Obligations.RejectedRateChangeAborts : Prop :=
  ∀ (c : Cfg) (s : State) (left : Rate), (nextMove s).setRate = .fail left →
    (s.phase = .rstSlowTx → phaseStep c s = { takeMove s with
      phase := .idle, txRate := left, response := some 0x200, responses := s.responses ++ [0x200]
      events := s.events ++ [{ call := .setRate .tx .slow, outcome := .fail }] }) ∧
    (s.phase = .rstSlowRx → phaseStep c s = { takeMove s with
      phase := .idle, rxRate := left, response := some 0x200, responses := s.responses ++ [0x200]
      events := s.events ++ [{ call := .setRate .rx .slow, outcome := .fail }] }) ∧
    (s.phase = .rstFastTx → phaseStep c s = { takeMove s with
      phase := .idle, txRate := left, response := some 0x200, responses := s.responses ++ [0x200]
      events := s.events ++ [{ call := .setRate .tx .fast, outcome := .fail }] }) ∧
    (s.phase = .rstFastRx → phaseStep c s = { takeMove s with
      phase := .idle, rxRate := left, response := some 0x200, responses := s.responses ++ [0x200]
      events := s.events ++ [{ call := .setRate .rx .fast, outcome := .fail }] })

/-- The drain (41_reset_sequencer.md section 2; D11, D28): a read of at least one byte loops, discarding what it read into
`DRAINBUF`, from index 0 (log entry 15); a read of nothing, a timeout and a receive error lead on, none a fault. -/
def Obligations.DrainPhase : Prop :=
  ∀ (c : Cfg) (s : State) (q : List Byte), s.phase = .rstDrain → q = (takeMove s).rxq →
    (∀ n : Nat, (nextMove s).readSome = .bytes n → q.take (min n c.drainBufLen) ≠ [] →
      phaseStep c s = { takeMove s with
        phase := .rstDrain, rxq := q.drop (min n c.drainBufLen)
        drainbuf := q.take (min n c.drainBufLen) ++ s.drainbuf.drop (q.take (min n c.drainBufLen)).length
        events := s.events ++ [{ call := .rxReadSome c.drainBufLen c.tDrain
                                 outcome := .bytes (q.take (min n c.drainBufLen)) }] }) ∧
    (∀ n : Nat, (nextMove s).readSome = .bytes n → q.take (min n c.drainBufLen) = [] →
      phaseStep c s = { takeMove s with
        phase := .rstPulse
        events := s.events ++ [{ call := .rxReadSome c.drainBufLen c.tDrain, outcome := .bytes [] }] }) ∧
    ((nextMove s).readSome = .timeout → phaseStep c s = { takeMove s with
      phase := .rstPulse
      events := s.events ++ [{ call := .rxReadSome c.drainBufLen c.tDrain, outcome := .timeout }] }) ∧
    (∀ n : Nat, (nextMove s).readSome = .fail n → phaseStep c s = { takeMove s with
      phase := .rstPulse, rxq := q.drop (min n c.drainBufLen)
      events := s.events ++ [{ call := .rxReadSome c.drainBufLen c.tDrain, outcome := .fail }] })

/-- The reset pulse and the wait (41_reset_sequencer.md section 2; D9, D15, D29): one character at the present rate; a
failed write aborts with `TransmitFailed` and 0 or 1 character sent; a write that has not returned leaves the phase. -/
def Obligations.PulseAndWaitPhases : Prop :=
  ∀ (c : Cfg) (s : State),
    (s.phase = .rstPulse → (nextMove s).write = .ok → phaseStep c s = { takeMove s with
      phase := .rstWait, txStream := s.txStream ++ [{ char := c.resetChar, rate := s.txRate }]
      events := s.events ++ [{ call := .memWrite [c.resetChar], outcome := .ok }] }) ∧
    (∀ n : Nat, s.phase = .rstPulse → (nextMove s).write = .fail n → phaseStep c s = { takeMove s with
      phase := .idle, response := some 0x400, responses := s.responses ++ [0x400]
      txStream := if n = 0 then s.txStream else s.txStream ++ [{ char := c.resetChar, rate := s.txRate }]
      events := s.events ++ [{ call := .memWrite [c.resetChar], outcome := .fail }] }) ∧
    (s.phase = .rstPulse → (nextMove s).write = .waiting → phaseStep c s = takeMove s) ∧
    (s.phase = .rstWait → phaseStep c s = { takeMove s with
      phase := .rstSample, events := s.events ++ [{ call := .wait c.tResetWait, outcome := .ok }] })

/-- The presence read (41_reset_sequencer.md section 2; D12): at most one byte, the oldest; every other outcome is `NONE`;
the rate is restored next whatever came. -/
def Obligations.SamplePhase : Prop :=
  ∀ (c : Cfg) (s : State) (q : List Byte), s.phase = .rstSample → q = (takeMove s).rxq →
    (∀ n : Nat, (nextMove s).readSome = .bytes n → phaseStep c s = { takeMove s with
      phase := .rstFastTx, resp := if n = 0 then none else q.head?, rxq := q.drop (min n 1)
      events := s.events ++ [{ call := .rxReadSome 1 c.tPresence, outcome := .bytes (q.take (min n 1)) }] }) ∧
    ((nextMove s).readSome = .timeout → phaseStep c s = { takeMove s with
      phase := .rstFastTx, resp := none
      events := s.events ++ [{ call := .rxReadSome 1 c.tPresence, outcome := .timeout }] }) ∧
    (∀ n : Nat, (nextMove s).readSome = .fail n → phaseStep c s = { takeMove s with
      phase := .rstFastTx, resp := none, rxq := q.drop (min n 1)
      events := s.events ++ [{ call := .rxReadSome 1 c.tPresence, outcome := .fail }] })

/-- The presence decision (41_reset_sequencer.md section 2; that it comes last is decision D20): one response, status `OK`,
and nothing else. No capability call is made. -/
def Obligations.ClassifyPhase : Prop :=
  ∀ (c : Cfg) (s : State), s.phase = .rstClassify →
    outstandingCall c s = none ∧
    phaseStep c s = { s with
      phase := .idle
      response := some (responseWord .ok (classify c s.resp) 0x00#8)
      responses := s.responses ++ [responseWord .ok (classify c s.resp) 0x00#8] }

/-! ### The phases of a byte exchange -/

/-- `P_XCH_ENCODE` (R182). -/
def Obligations.EncodePhase : Prop :=
  ∀ (c : Cfg) (s : State), s.phase = .xchEncode →
    outstandingCall c s = none ∧ phaseStep c s = { s with phase := .xchTx, txbuf := encByte c s.operand }

/-- `P_XCH_TX` (R183): the eight characters in one call, `TXBUF[0]` first, and the three ways the call can go (what a
failed write has sent is decision D29, a write that has not returned is 60_exceptions.md section 6). -/
def Obligations.TransmitPhase : Prop :=
  ∀ (c : Cfg) (s : State), s.phase = .xchTx →
    ((nextMove s).write = .ok → phaseStep c s = { takeMove s with
      phase := .xchRx
      txStream := s.txStream ++ s.txbuf.toList.map fun x => { char := x, rate := s.txRate }
      events := s.events ++ [{ call := .memWrite s.txbuf.toList, outcome := .ok }] }) ∧
    (∀ n : Nat, (nextMove s).write = .fail n → phaseStep c s = { takeMove s with
      phase := .idle, response := some 0x400, responses := s.responses ++ [0x400]
      txStream := s.txStream ++ (s.txbuf.toList.take n).map fun x => { char := x, rate := s.txRate }
      events := s.events ++ [{ call := .memWrite s.txbuf.toList, outcome := .fail }] }) ∧
    ((nextMove s).write = .waiting → phaseStep c s = takeMove s)

/-- `P_XCH_RX` (42_byte_exchange.md section 1; D16, D17, D29): eight bytes or a fault; `Timeout` only where
`SLOT_READ_TIMEOUT` is a duration and fewer than eight bytes are there (60_exceptions.md section 1); with fewer than eight
bytes and no bound the call has not returned. `RXBUF` holds the characters in the order received. That the read returns
once its bytes are there is log entry 13; a move that writes a timeout where there is none stands for the bytes' arrival,
log entry 14. -/
def Obligations.ReceivePhase : Prop :=
  (∀ bs : List Byte, bs.length = 8 → (charsOf bs).toList = bs) ∧
  ∀ (c : Cfg) (s : State) (q : List Byte), s.phase = .xchRx → q = (takeMove s).rxq →
    ((∀ n : Nat, (nextMove s).readExact ≠ .fail n) → 8 ≤ q.length → phaseStep c s = { takeMove s with
      phase := .xchDecode, rxbuf := charsOf (q.take 8), rxq := q.drop 8
      events := s.events ++ [{ call := .memRead 8, outcome := .bytes (q.take 8) }] }) ∧
    ((nextMove s).readExact = .arrive → q.length < 8 → phaseStep c s = takeMove s) ∧
    (∀ n : Nat, (nextMove s).readExact = .fail n → phaseStep c s = { takeMove s with
      phase := .idle, response := some 0x600, responses := s.responses ++ [0x600], rxq := q.drop (min n 8)
      events := s.events ++ [{ call := .memRead 8, outcome := .fail }] }) ∧
    (∀ n bound : Nat, (nextMove s).readExact = .timeout n → c.slotReadTimeout = some bound → q.length < 8 →
      phaseStep c s = { takeMove s with
        phase := .idle, response := some 0x800, responses := s.responses ++ [0x800], rxq := q.drop (min n 8)
        events := s.events ++ [{ call := .memRead 8, outcome := .timeout }] }) ∧
    (∀ n : Nat, (nextMove s).readExact = .timeout n → c.slotReadTimeout = none → q.length < 8 →
      phaseStep c s = takeMove s)

/-- `P_XCH_DECODE` (R185). -/
def Obligations.DecodePhase : Prop :=
  ∀ (c : Cfg) (s : State), s.phase = .xchDecode →
    outstandingCall c s = none ∧
    phaseStep c s = { s with
      phase := .idle
      response := some (responseWord .ok false (decByte c s.rxbuf))
      responses := s.responses ++ [responseWord .ok false (decByte c s.rxbuf)] }

/-! ### Faults, waiting, ordering -/

/-- The fault table is complete (60_exceptions.md section 1; the numbers are D3): a step presents a fault response exactly
where the table has a row, and the status is that row's. `ReceiveTimeout` comes only where `SLOT_READ_TIMEOUT` is a
duration and fewer than eight bytes are there (D16, 20_memory.md section 2); a move that writes a timeout elsewhere reads
as the bytes' arrival, log entry 14. -/
def Obligations.FaultTable : Prop :=
  (Status.configurationFailed.code = 1 ∧ Status.transmitFailed.code = 2 ∧ Status.receiveFailed.code = 3 ∧
    Status.receiveTimeout.code = 4) ∧
  ∀ (c : Cfg) (s : State) (f : Status), f ≠ .ok →
    ((phaseStep c s).responses = s.responses ++ [responseWord f false 0x00#8] ↔
      (f = .configurationFailed ∧ (s.phase = .rstSlowTx ∨ s.phase = .rstSlowRx ∨ s.phase = .rstFastTx ∨
          s.phase = .rstFastRx) ∧ ∃ left, (nextMove s).setRate = .fail left) ∨
      (f = .transmitFailed ∧ (s.phase = .rstPulse ∨ s.phase = .xchTx) ∧ ∃ n, (nextMove s).write = .fail n) ∨
      (f = .receiveFailed ∧ s.phase = .xchRx ∧ ∃ n, (nextMove s).readExact = .fail n) ∨
      (f = .receiveTimeout ∧ s.phase = .xchRx ∧ c.slotReadTimeout ≠ none ∧ (takeMove s).rxq.length < 8 ∧
        ∃ n, (nextMove s).readExact = .timeout n))

/-- With `SLOT_READ_TIMEOUT == NONE`, this hardware, no step presents `ReceiveTimeout` (60_exceptions.md section 1; D16). -/
def Obligations.NoTimeoutFaultHere : Prop :=
  ∀ s t : State, step s = .next t → t.responses ≠ s.responses ++ [responseWord .receiveTimeout false 0x00#8]

/-- No outcome of the drain or of the presence read is a fault (60_exceptions.md section 1, 41_reset_sequencer.md section
3): from either phase a step presents no response, and the bus reset goes on. -/
def Obligations.DrainAndSampleNeverFault : Prop :=
  ∀ (c : Cfg) (s : State),
    (s.phase = .rstDrain → (phaseStep c s).responses = s.responses ∧
      ((phaseStep c s).phase = .rstDrain ∨ (phaseStep c s).phase = .rstPulse)) ∧
    (s.phase = .rstSample → (phaseStep c s).responses = s.responses ∧ (phaseStep c s).phase = .rstFastTx)

/-- Exactly one response per command, in the step that returns to `IDLE` (30_encoding.md section 1, 70 section 3; D3). -/
def Obligations.OneResponseOnReturn : Prop :=
  ∀ (c : Cfg) (s : State), s.phase ≠ .idle →
    ((phaseStep c s).phase ≠ .idle ∧ (phaseStep c s).responses = s.responses ∧
      (phaseStep c s).response = s.response) ∨
    (∃ w, legalResponse w = true ∧ (phaseStep c s).phase = .idle ∧
      (phaseStep c s).responses = s.responses ++ [w] ∧ (phaseStep c s).response = some w)

/-- At most one call is outstanding, and while it has not returned the phase does not change and no other call is made
(20_memory.md section 6): a step either records the outstanding call, or records nothing, and then, where a call is
outstanding, only the environment has moved. -/
def Obligations.OneCallAtATime : Prop :=
  ∀ (c : Cfg) (s : State),
    ((phaseStep c s).events = s.events ∧ (outstandingCall c s ≠ none → phaseStep c s = takeMove s)) ∨
    (∃ k o, outstandingCall c s = some k ∧ (phaseStep c s).events = s.events ++ [{ call := k, outcome := o }])

/-- Where the block can be stuck (60_exceptions.md section 6): a call stays outstanding only in three phases; a `MemWrite`
does so while the environment lets it wait, and the unbounded `MemRead` exactly while fewer than eight bytes have arrived
and no failure is reported (that the other calls always return is log entry 13). -/
def Obligations.StuckOnlyInThreePhases : Prop :=
  (∀ (c : Cfg) (s : State), outstandingCall c s ≠ none →
    ((phaseStep c s).events = s.events ↔ callWaits c s = true)) ∧
  (∀ (c : Cfg) (s : State), callWaits c s = true →
    (s.phase = .rstPulse ∨ s.phase = .xchTx) ∧ (nextMove s).write = .waiting ∨ s.phase = .xchRx) ∧
  (∀ (c : Cfg) (s : State), s.phase = .xchRx → c.slotReadTimeout = none →
    (callWaits c s = true ↔ (takeMove s).rxq.length < 8 ∧ ∀ n, (nextMove s).readExact ≠ .fail n))

/-- The drain has no bound (41_reset_sequencer.md section 2, 70 section 4): however many reads deliver, stale bytes or bytes
just arrived, the block is still in the drain and has responded nothing. -/
def Obligations.DrainHasNoBound : Prop :=
  ∀ (s : State) (ds : List EnvMove) (rest : List EnvInput) (q : List Byte), s.phase = .rstDrain →
    s.inputs = ds.map .move ++ rest → drained Config.owbt s.rxq ds = some q →
    ∃ u : State, run ds.length s = .next u ∧ u.phase = .rstDrain ∧ u.responses = s.responses ∧
      u.rxq = q ∧ u.inputs = rest ∧ u.events.length = s.events.length + ds.length

/-- Reads take bytes only from the head of `RXQ`, in order, at most as many as the call asks for, and deliver exactly those
they take where they deliver; a call that is no read, a read that has not returned and an `RxReadSome` that timed out take
none (20_memory.md sections 2 and 6; D29 for a failed read). -/
def Obligations.ReadsTakeTheHead : Prop :=
  ∀ (c : Cfg) (s : State),
    ((outstandingCall c s = none ∧ s.phase ≠ .idle) ∧ (phaseStep c s).rxq = s.rxq) ∨
    (¬ (outstandingCall c s = none ∧ s.phase ≠ .idle) ∧
      ∃ k, k ≤ askedBy (outstandingCall c s) ∧ (phaseStep c s).rxq = (s.rxq ++ (nextMove s).arrivals).drop k ∧
        ((phaseStep c s).events = s.events → k = 0) ∧
        ∀ e : Event, (phaseStep c s).events = s.events ++ [e] →
          (∀ (len : Nat) (bound : Micros), e = { call := .rxReadSome len bound, outcome := .timeout } → k = 0) ∧
          ∀ bs : List Byte, e.outcome = .bytes bs → bs = (s.rxq ++ (nextMove s).arrivals).take k)

/-- A write puts characters on the wire in the order given, at the rate the transmit capability has, all of them when it
returns `Ok`; nothing else reaches the wire (20_memory.md sections 2 and 6; D29 for a failed write). -/
def Obligations.WritesReachTheWire : Prop :=
  ∀ (c : Cfg) (s : State),
    (∃ (v : List Byte) (k : Nat), outstandingCall c s = some (.memWrite v) ∧
      (phaseStep c s).txStream = s.txStream ++ (v.take k).map (fun x => { char := x, rate := s.txRate }) ∧
      ((phaseStep c s).events = s.events ++ [{ call := .memWrite v, outcome := .ok }] → k = v.length)) ∨
    ((∀ v, outstandingCall c s ≠ some (.memWrite v)) ∧ (phaseStep c s).txStream = s.txStream)

/-! ### Frames -/

/-- What the phases of a bus reset leave unchanged (R163: it "reads nothing of `OPERAND`, `TXBUF` or `RXBUF`"; 41 section
1): the exchange's buffers and the host's words, and a rate outside its own phases. -/
def Obligations.ResetPhasesFrame : Prop :=
  ∀ (c : Cfg) (s : State),
    s.phase ∈ [.rstSlowTx, .rstSlowRx, .rstDrain, .rstPulse, .rstWait, .rstSample, .rstFastTx, .rstFastRx,
      .rstClassify] →
    (phaseStep c s).operand = s.operand ∧ (phaseStep c s).txbuf = s.txbuf ∧ (phaseStep c s).rxbuf = s.rxbuf ∧
    (phaseStep c s).offers = s.offers ∧
    (s.phase ≠ .rstSlowTx ∧ s.phase ≠ .rstFastTx → (phaseStep c s).txRate = s.txRate) ∧
    (s.phase ≠ .rstSlowRx ∧ s.phase ≠ .rstFastRx → (phaseStep c s).rxRate = s.rxRate) ∧
    (s.phase ≠ .rstSample → (phaseStep c s).resp = s.resp) ∧
    (s.phase ≠ .rstDrain → (phaseStep c s).drainbuf = s.drainbuf) ∧
    (∀ (v : Byte) (x y : Chars), phaseStep c { s with operand := v, txbuf := x, rxbuf := y } =
      { phaseStep c s with operand := v, txbuf := x, rxbuf := y })

/-- What the phases of a byte exchange leave unchanged (42_byte_exchange.md section 1: "Not written: `TX_RATE`, `RX_RATE`,
`RESP`"), beside `OPERAND`, `DRAINBUF` and the host's words. -/
def Obligations.ExchangePhasesFrame : Prop :=
  ∀ (c : Cfg) (s : State), s.phase ∈ [.xchEncode, .xchTx, .xchRx, .xchDecode] →
    (phaseStep c s).txRate = s.txRate ∧ (phaseStep c s).rxRate = s.rxRate ∧ (phaseStep c s).resp = s.resp ∧
    (phaseStep c s).operand = s.operand ∧ (phaseStep c s).drainbuf = s.drainbuf ∧
    (phaseStep c s).offers = s.offers ∧
    (s.phase ≠ .xchEncode → (phaseStep c s).txbuf = s.txbuf) ∧
    (s.phase ≠ .xchRx → (phaseStep c s).rxbuf = s.rxbuf) ∧
    (s.phase ≠ .xchRx → ∃ bs, (phaseStep c s).rxq = s.rxq ++ bs)

/-- The transmission of either command that fails is a distinguishable bus fault that ends it (R202). -/
def Obligations.TransmitErrorSurfaces : Prop :=
  ∀ (c : Cfg) (s : State) (n : Nat), (s.phase = .rstPulse ∨ s.phase = .xchTx) → (nextMove s).write = .fail n →
    (phaseStep c s).phase = .idle ∧
    ∃ w, (phaseStep c s).response = some w ∧ statusField w = Status.transmitFailed.code ∧
      ∀ st : Status, statusField w = st.code → st = .transmitFailed

/-! ### Reset -/

/-- The state after block reset (10_state.md section 8; D18): idle, the rates the platform's, no response pending, nothing
made or answered. The buffers' zeros (log entry 3) and the empty `RXQ` (log entry 4) are the model's choice and are not
stated. -/
def Obligations.ResetState : Prop :=
  State.reset.phase = .idle ∧ State.reset.txRate = Config.initRateTx ∧ State.reset.rxRate = Config.initRateRx ∧
  State.reset.response = none ∧ State.reset.events = [] ∧ State.reset.responses = [] ∧
  State.reset.txStream = [] ∧ busy State.reset = false ∧ runEnded State.reset = true

/-- A block reset in any phase (70_reset_and_hazards.md section 1; D18, D25): idle, no response for the interrupted
command, no capability call, and the rates and `RXQ` as they were. The wire may be left in the middle of a write: of a write
that has not returned the first `k` characters have been sent, at most all, and otherwise nothing is sent. It comes as an
input, and a cut call is not recorded (log entry 12). -/
def Obligations.BlockResetKeepsTheOutside : Prop :=
  ∀ (s : State) (k : Nat) (rest : List EnvInput), s.inputs = .blockReset k :: rest →
    ∃ t, step s = .next t ∧ t.phase = .idle ∧ t.response = none ∧ t.responses = s.responses ∧
      t.events = s.events ∧ t.txRate = s.txRate ∧ t.rxRate = s.rxRate ∧ t.rxq = s.rxq ∧
      (∀ v : List Byte, outstandingCall Config.owbt s = some (.memWrite v) →
        t.txStream = s.txStream ++ (v.take k).map fun x => { char := x, rate := s.txRate }) ∧
      ((∀ v : List Byte, outstandingCall Config.owbt s ≠ some (.memWrite v)) → t.txStream = s.txStream) ∧
      t.offers = s.offers ∧ t.inputs = rest

/-! ### Invariants and whole-machine rules -/

/-- Every step keeps the invariant: legal calls and outcomes in the history, the rates that go with each phase of a bus
reset, the transmit alphabet, legal responses, none pending while busy, `TXBUF` the operand's characters. The clause on
the response port rests on log entry 9, the one on `TXBUF` after a block reset on log entry 3. -/
def Obligations.StepKeepsInvariant : Prop :=
  ∀ s t : State, Inv s → step s = .next t → Inv t

/-- The invariant holds after block reset. Its clause on the characters of `TXBUF` rests on the zeros of log entry 3. -/
def Obligations.InvariantAtReset : Prop := Inv State.reset

/-- When a bus reset presents status `OK`, both rates are fast (41_reset_sequencer.md section 3, 10_state.md section 5), in
every state that meets the invariant. -/
def Obligations.OkResetLeavesFastRates : Prop :=
  ∀ s : State, Inv s → (∀ k, s.inputs.head? ≠ some (.blockReset k)) → s.phase = .rstClassify →
    ∃ t, step s = .next t ∧ t.phase = .idle ∧ t.txRate = .fast ∧ t.rxRate = .fast ∧
      ∃ w, t.response = some w ∧ statusField w = 0

/-- Between commands the block holds no information (R20): from two idle states that differ only in the five buffers, any
number of steps end alike, with the same responses, calls, rates, queue and phase. -/
def Obligations.NothingHeldBetweenCommands : Prop :=
  ∀ (n : Nat) (s t : State), agreeOutside s t → s.phase = .idle → sameEnd (run n s) (run n t)

/-! ### The reference environment and the source's properties -/

/-- `ENV_REF` (20_memory.md section 5; D22; what a failed call leaves is log entry 11). At a call that no switch names: a
write is sent and each of its characters echoed, ANDed with its pull, and the pull script moves on by as many; a bounded
read takes what is there; a rate change succeeds. At a call that a switch names nothing is sent or appended and the script
stays. Over a run from any state: `ECHO` and `WIRE_AND` hold, the bytes appended are the characters sent ANDed with the
pull script, and the script has moved on by one byte for each character. A block reset in the run finds nothing of a write
sent (log entry 11). -/
def Obligations.ReferenceEnvironmentEchoes : Prop :=
  (∀ (e : EnvRef) (s : State), e.failing.contains (s.events.length + 1) = false →
    (refMove e s).setRate = .ok ∧ (refNext e s).failing = e.failing ∧
    (∀ v : List Byte, outstandingCall Config.owbt s = some (.memWrite v) →
      (refMove e s).write = .ok ∧ (refMove e s).arrivals.length = v.length ∧
      (refNext e s).pulls = e.pulls.drop v.length ∧
      ∀ (k : Nat) (h : k < v.length), ∃ r, (refMove e s).arrivals[k]? = some r ∧ wireAnd v[k] r = true ∧
        r = v[k] &&& e.pulls.getD k 0xFF) ∧
    ((∀ v, outstandingCall Config.owbt s ≠ some (.memWrite v)) →
      (refMove e s).arrivals = [] ∧ (refNext e s).pulls = e.pulls) ∧
    (∀ (len : Nat) (bound : Micros), outstandingCall Config.owbt s = some (.rxReadSome len bound) →
      (s.rxq = [] → (refMove e s).readSome = .timeout) ∧
      (s.rxq ≠ [] → (refMove e s).readSome = .bytes (min len s.rxq.length))) ∧
    (∀ n : Nat, outstandingCall Config.owbt s = some (.memRead n) → (refMove e s).readExact = .arrive)) ∧
  (∀ (e : EnvRef) (s : State), e.failing.contains (s.events.length + 1) = true →
    (refMove e s).write = .fail 0 ∧ (refMove e s).arrivals = [] ∧ refNext e s = e) ∧
  (∀ (n : Nat) (e : EnvRef) (s : State),
    echo (refPath n e s) = true ∧ wireLaw (refPath n e s) = true ∧
    pathArrivals (refPath n e s) = readbacks e.pulls ((pathSent (refPath n e s)).map SentChar.char) ∧
    (refRun n e s).1.pulls = e.pulls.drop (pathSent (refPath n e s)).length)

/-- The exchange under `ECHO` and `WIRE_AND`, whatever else the environment does (42_byte_exchange.md section 3, 20_memory.md
section 5; D22): from an idle state with `RXQ` empty, in a run of `n` steps that has responded nothing yet, the write having
been sent as the phase shows. In the readback phase the next step, with whose arrivals every character is echoed, gets its
eight bytes unless the read fails; in the decoding phase the next step answers the byte sent with the bits of the slots
cleared whose readback is not 0xFF, so the byte itself where every readback is its character, and `RXQ` is empty again. That
`ECHO`'s deadline is the end of the run is log entry 28. -/
def Obligations.EchoedExchange : Prop :=
  ∀ (n : Nat) (s t : State) (w : CommandWord) (rest : List CommandWord) (i : Instr) (b : Byte),
    s.phase = .idle → s.rxq = [] → (∀ k, .blockReset k ∉ s.inputs) → s.offers = w :: rest → decode w = .ok i →
    (i = .writeReadByte b ∨ i = .readByte ∧ b = 0xFF) → run n s = .next t → t.responses = s.responses →
    (t.phase = .xchRx → echo (path (n + 1) s) = true → (∀ k, (nextMove t).readExact ≠ .fail k) →
      ∃ u, step t = .next u ∧ u.phase = .xchDecode) ∧
    (t.phase = .xchDecode → echo (path n s) = true → wireLaw (path n s) = true →
      (pathSent (path n s)).map SentChar.char = (encByte Config.owbt b).toList ∧
      ∃ u d, step t = .next u ∧ u.phase = .idle ∧ u.rxq = [] ∧ u.response = some (responseWord .ok false d) ∧
        (∀ k : Nat, k < 8 → ∃ r, (pathArrivals (path n s))[k]? = some r ∧
          d.getLsbD k = (b.getLsbD k && r == 0xFF)) ∧
        (pathArrivals (path n s) = (encByte Config.owbt b).toList → d = b))

/-- The exchange under `ENV_REF` (42_byte_exchange.md section 3): with `RXQ` empty and no failing call,
`WRITE_READ_BYTE b` returns `b` with the bits of the pulled slots cleared; with no pull it returns `b`. -/
def Obligations.ExchangeUnderReference : Prop :=
  ∀ (s : State) (b : Byte) (pulls : List Byte), s.phase = .idle → s.inputs = [] → s.rxq = [] →
    s.offers = [encode (.writeReadByte b)] →
    ∃ u d, (refRun 5 { pulls := pulls, failing := [] } s).2 = .next u ∧
      u.response = some (responseWord .ok false d) ∧ u.phase = .idle ∧ u.rxq = [] ∧ u.txRate = s.txRate ∧
      u.rxRate = s.rxRate ∧ (∀ i : Nat, i < 8 → d.getLsbD i = (b.getLsbD i && pulls.getD i 0xFF == 0xFF)) ∧
      ((∀ i : Nat, i < 8 → pulls.getD i 0xFF = 0xFF) → d = b)

/-- The bus reset under `ENV_REF` (41_reset_sequencer.md section 1, the example): the eight calls in order, and the device
is present exactly where its pull of the reset character leaves a *Present* value. -/
def Obligations.BusResetUnderReference : Prop :=
  ∀ (s : State) (m : Byte) (pulls : List Byte) (w : CommandWord), s.phase = .idle → s.inputs = [] → s.rxq = [] →
    s.offers = [w] → w &&& opMask = 0x000#10 →
    ∃ u, (refRun 10 { pulls := m :: pulls, failing := [] } s).2 = .next u ∧
      u.response = some (responseWord .ok (classify Config.owbt (some (0xF0 &&& m))) 0x00#8) ∧
      u.phase = .idle ∧ u.rxq = [] ∧ u.txRate = .fast ∧ u.rxRate = .fast ∧
      u.events = s.events ++
        [{ call := .setRate .tx .slow, outcome := .ok }, { call := .setRate .rx .slow, outcome := .ok },
          { call := .rxReadSome 8 1000, outcome := .timeout }, { call := .memWrite [0xF0], outcome := .ok },
          { call := .wait 2000, outcome := .ok }, { call := .rxReadSome 1 10000, outcome := .bytes [0xF0 &&& m] },
          { call := .setRate .tx .fast, outcome := .ok }, { call := .setRate .rx .fast, outcome := .ok }]

/-- The stale-byte hazard (70_reset_and_hazards.md section 4): one stale byte shifts every readback by one slot, in
silence, and the last echo stays behind. -/
def Obligations.StaleByteShiftsResult : Prop :=
  ∀ (s : State) (b x : Byte), s.phase = .idle → s.inputs = [] → s.rxq = [x] →
    s.offers = [encode (.writeReadByte b)] →
    ∃ u d, (refRun 5 { pulls := [], failing := [] } s).2 = .next u ∧
      u.response = some (responseWord .ok false d) ∧ d.getLsbD 0 = (x == 0xFF) ∧
      (∀ i : Nat, i < 7 → d.getLsbD (i + 1) = b.getLsbD i) ∧
      u.rxq = [if b.getLsbD 7 then 0xFF else 0x00]
end

