-- ==== Sys2Proof/Laws/State.lean ====
section
/-! SUPPORT. For each named update of the state, what each field is after it. -/

namespace Sys2Proof.Machine

variable (s : State)

@[simp] theorem goto_phase (p : Phase) : (goto p s).phase = p := rfl
@[simp] theorem goto_operand (p : Phase) : (goto p s).operand = s.operand := rfl
@[simp] theorem goto_txbuf (p : Phase) : (goto p s).txbuf = s.txbuf := rfl
@[simp] theorem goto_rxbuf (p : Phase) : (goto p s).rxbuf = s.rxbuf := rfl
@[simp] theorem goto_resp (p : Phase) : (goto p s).resp = s.resp := rfl
@[simp] theorem goto_drainbuf (p : Phase) : (goto p s).drainbuf = s.drainbuf := rfl
@[simp] theorem goto_txRate (p : Phase) : (goto p s).txRate = s.txRate := rfl
@[simp] theorem goto_rxRate (p : Phase) : (goto p s).rxRate = s.rxRate := rfl
@[simp] theorem goto_rxq (p : Phase) : (goto p s).rxq = s.rxq := rfl
@[simp] theorem goto_txStream (p : Phase) : (goto p s).txStream = s.txStream := rfl
@[simp] theorem goto_offers (p : Phase) : (goto p s).offers = s.offers := rfl
@[simp] theorem goto_response (p : Phase) : (goto p s).response = s.response := rfl
@[simp] theorem goto_events (p : Phase) : (goto p s).events = s.events := rfl
@[simp] theorem goto_responses (p : Phase) : (goto p s).responses = s.responses := rfl
@[simp] theorem goto_inputs (p : Phase) : (goto p s).inputs = s.inputs := rfl
@[simp] theorem goto_freeMoves (p : Phase) : (goto p s).freeMoves = s.freeMoves := rfl

@[simp] theorem logEvent_phase (k : Call) (o : CallOutcome) : (logEvent k o s).phase = s.phase := rfl
@[simp] theorem logEvent_operand (k : Call) (o : CallOutcome) : (logEvent k o s).operand = s.operand := rfl
@[simp] theorem logEvent_txbuf (k : Call) (o : CallOutcome) : (logEvent k o s).txbuf = s.txbuf := rfl
@[simp] theorem logEvent_rxbuf (k : Call) (o : CallOutcome) : (logEvent k o s).rxbuf = s.rxbuf := rfl
@[simp] theorem logEvent_resp (k : Call) (o : CallOutcome) : (logEvent k o s).resp = s.resp := rfl
@[simp] theorem logEvent_drainbuf (k : Call) (o : CallOutcome) : (logEvent k o s).drainbuf = s.drainbuf := rfl
@[simp] theorem logEvent_txRate (k : Call) (o : CallOutcome) : (logEvent k o s).txRate = s.txRate := rfl
@[simp] theorem logEvent_rxRate (k : Call) (o : CallOutcome) : (logEvent k o s).rxRate = s.rxRate := rfl
@[simp] theorem logEvent_rxq (k : Call) (o : CallOutcome) : (logEvent k o s).rxq = s.rxq := rfl
@[simp] theorem logEvent_txStream (k : Call) (o : CallOutcome) : (logEvent k o s).txStream = s.txStream := rfl
@[simp] theorem logEvent_offers (k : Call) (o : CallOutcome) : (logEvent k o s).offers = s.offers := rfl
@[simp] theorem logEvent_response (k : Call) (o : CallOutcome) : (logEvent k o s).response = s.response := rfl
@[simp] theorem logEvent_events (k : Call) (o : CallOutcome) : (logEvent k o s).events = s.events ++ [{ call := k, outcome := o }] := rfl
@[simp] theorem logEvent_responses (k : Call) (o : CallOutcome) : (logEvent k o s).responses = s.responses := rfl
@[simp] theorem logEvent_inputs (k : Call) (o : CallOutcome) : (logEvent k o s).inputs = s.inputs := rfl
@[simp] theorem logEvent_freeMoves (k : Call) (o : CallOutcome) : (logEvent k o s).freeMoves = s.freeMoves := rfl

@[simp] theorem respond_phase (st : Status) (p : Bool) (d : Byte) : (respond st p d s).phase = .idle := rfl
@[simp] theorem respond_operand (st : Status) (p : Bool) (d : Byte) : (respond st p d s).operand = s.operand := rfl
@[simp] theorem respond_txbuf (st : Status) (p : Bool) (d : Byte) : (respond st p d s).txbuf = s.txbuf := rfl
@[simp] theorem respond_rxbuf (st : Status) (p : Bool) (d : Byte) : (respond st p d s).rxbuf = s.rxbuf := rfl
@[simp] theorem respond_resp (st : Status) (p : Bool) (d : Byte) : (respond st p d s).resp = s.resp := rfl
@[simp] theorem respond_drainbuf (st : Status) (p : Bool) (d : Byte) : (respond st p d s).drainbuf = s.drainbuf := rfl
@[simp] theorem respond_txRate (st : Status) (p : Bool) (d : Byte) : (respond st p d s).txRate = s.txRate := rfl
@[simp] theorem respond_rxRate (st : Status) (p : Bool) (d : Byte) : (respond st p d s).rxRate = s.rxRate := rfl
@[simp] theorem respond_rxq (st : Status) (p : Bool) (d : Byte) : (respond st p d s).rxq = s.rxq := rfl
@[simp] theorem respond_txStream (st : Status) (p : Bool) (d : Byte) : (respond st p d s).txStream = s.txStream := rfl
@[simp] theorem respond_offers (st : Status) (p : Bool) (d : Byte) : (respond st p d s).offers = s.offers := rfl
@[simp] theorem respond_response (st : Status) (p : Bool) (d : Byte) : (respond st p d s).response = some (responseWord st p d) := rfl
@[simp] theorem respond_events (st : Status) (p : Bool) (d : Byte) : (respond st p d s).events = s.events := rfl
@[simp] theorem respond_responses (st : Status) (p : Bool) (d : Byte) : (respond st p d s).responses = s.responses ++ [responseWord st p d] := rfl
@[simp] theorem respond_inputs (st : Status) (p : Bool) (d : Byte) : (respond st p d s).inputs = s.inputs := rfl
@[simp] theorem respond_freeMoves (st : Status) (p : Bool) (d : Byte) : (respond st p d s).freeMoves = s.freeMoves := rfl

@[simp] theorem raise_phase (f : Status) : (raise f s).phase = .idle := rfl
@[simp] theorem raise_operand (f : Status) : (raise f s).operand = s.operand := rfl
@[simp] theorem raise_txbuf (f : Status) : (raise f s).txbuf = s.txbuf := rfl
@[simp] theorem raise_rxbuf (f : Status) : (raise f s).rxbuf = s.rxbuf := rfl
@[simp] theorem raise_resp (f : Status) : (raise f s).resp = s.resp := rfl
@[simp] theorem raise_drainbuf (f : Status) : (raise f s).drainbuf = s.drainbuf := rfl
@[simp] theorem raise_txRate (f : Status) : (raise f s).txRate = s.txRate := rfl
@[simp] theorem raise_rxRate (f : Status) : (raise f s).rxRate = s.rxRate := rfl
@[simp] theorem raise_rxq (f : Status) : (raise f s).rxq = s.rxq := rfl
@[simp] theorem raise_txStream (f : Status) : (raise f s).txStream = s.txStream := rfl
@[simp] theorem raise_offers (f : Status) : (raise f s).offers = s.offers := rfl
@[simp] theorem raise_response (f : Status) : (raise f s).response = some (responseWord f false 0x00#8) := rfl
@[simp] theorem raise_events (f : Status) : (raise f s).events = s.events := rfl
@[simp] theorem raise_responses (f : Status) : (raise f s).responses = s.responses ++ [responseWord f false 0x00#8] := rfl
@[simp] theorem raise_inputs (f : Status) : (raise f s).inputs = s.inputs := rfl
@[simp] theorem raise_freeMoves (f : Status) : (raise f s).freeMoves = s.freeMoves := rfl

@[simp] theorem accept_phase (p : Phase) : (accept p s).phase = p := rfl
@[simp] theorem accept_operand (p : Phase) : (accept p s).operand = s.operand := rfl
@[simp] theorem accept_txbuf (p : Phase) : (accept p s).txbuf = s.txbuf := rfl
@[simp] theorem accept_rxbuf (p : Phase) : (accept p s).rxbuf = s.rxbuf := rfl
@[simp] theorem accept_resp (p : Phase) : (accept p s).resp = s.resp := rfl
@[simp] theorem accept_drainbuf (p : Phase) : (accept p s).drainbuf = s.drainbuf := rfl
@[simp] theorem accept_txRate (p : Phase) : (accept p s).txRate = s.txRate := rfl
@[simp] theorem accept_rxRate (p : Phase) : (accept p s).rxRate = s.rxRate := rfl
@[simp] theorem accept_rxq (p : Phase) : (accept p s).rxq = s.rxq := rfl
@[simp] theorem accept_txStream (p : Phase) : (accept p s).txStream = s.txStream := rfl
@[simp] theorem accept_offers (p : Phase) : (accept p s).offers = s.offers := rfl
@[simp] theorem accept_response (p : Phase) : (accept p s).response = none := rfl
@[simp] theorem accept_events (p : Phase) : (accept p s).events = s.events := rfl
@[simp] theorem accept_responses (p : Phase) : (accept p s).responses = s.responses := rfl
@[simp] theorem accept_inputs (p : Phase) : (accept p s).inputs = s.inputs := rfl
@[simp] theorem accept_freeMoves (p : Phase) : (accept p s).freeMoves = s.freeMoves := rfl

@[simp] theorem setOperand_phase (v : Byte) : (setOperand v s).phase = s.phase := rfl
@[simp] theorem setOperand_operand (v : Byte) : (setOperand v s).operand = v := rfl
@[simp] theorem setOperand_txbuf (v : Byte) : (setOperand v s).txbuf = s.txbuf := rfl
@[simp] theorem setOperand_rxbuf (v : Byte) : (setOperand v s).rxbuf = s.rxbuf := rfl
@[simp] theorem setOperand_resp (v : Byte) : (setOperand v s).resp = s.resp := rfl
@[simp] theorem setOperand_drainbuf (v : Byte) : (setOperand v s).drainbuf = s.drainbuf := rfl
@[simp] theorem setOperand_txRate (v : Byte) : (setOperand v s).txRate = s.txRate := rfl
@[simp] theorem setOperand_rxRate (v : Byte) : (setOperand v s).rxRate = s.rxRate := rfl
@[simp] theorem setOperand_rxq (v : Byte) : (setOperand v s).rxq = s.rxq := rfl
@[simp] theorem setOperand_txStream (v : Byte) : (setOperand v s).txStream = s.txStream := rfl
@[simp] theorem setOperand_offers (v : Byte) : (setOperand v s).offers = s.offers := rfl
@[simp] theorem setOperand_response (v : Byte) : (setOperand v s).response = s.response := rfl
@[simp] theorem setOperand_events (v : Byte) : (setOperand v s).events = s.events := rfl
@[simp] theorem setOperand_responses (v : Byte) : (setOperand v s).responses = s.responses := rfl
@[simp] theorem setOperand_inputs (v : Byte) : (setOperand v s).inputs = s.inputs := rfl
@[simp] theorem setOperand_freeMoves (v : Byte) : (setOperand v s).freeMoves = s.freeMoves := rfl

@[simp] theorem takeOffer_phase : (takeOffer s).phase = s.phase := rfl
@[simp] theorem takeOffer_operand : (takeOffer s).operand = s.operand := rfl
@[simp] theorem takeOffer_txbuf : (takeOffer s).txbuf = s.txbuf := rfl
@[simp] theorem takeOffer_rxbuf : (takeOffer s).rxbuf = s.rxbuf := rfl
@[simp] theorem takeOffer_resp : (takeOffer s).resp = s.resp := rfl
@[simp] theorem takeOffer_drainbuf : (takeOffer s).drainbuf = s.drainbuf := rfl
@[simp] theorem takeOffer_txRate : (takeOffer s).txRate = s.txRate := rfl
@[simp] theorem takeOffer_rxRate : (takeOffer s).rxRate = s.rxRate := rfl
@[simp] theorem takeOffer_rxq : (takeOffer s).rxq = s.rxq := rfl
@[simp] theorem takeOffer_txStream : (takeOffer s).txStream = s.txStream := rfl
@[simp] theorem takeOffer_offers : (takeOffer s).offers = s.offers.tail := rfl
@[simp] theorem takeOffer_response : (takeOffer s).response = s.response := rfl
@[simp] theorem takeOffer_events : (takeOffer s).events = s.events := rfl
@[simp] theorem takeOffer_responses : (takeOffer s).responses = s.responses := rfl
@[simp] theorem takeOffer_inputs : (takeOffer s).inputs = s.inputs := rfl
@[simp] theorem takeOffer_freeMoves : (takeOffer s).freeMoves = s.freeMoves := rfl

@[simp] theorem dropInput_phase : (dropInput s).phase = s.phase := rfl
@[simp] theorem dropInput_operand : (dropInput s).operand = s.operand := rfl
@[simp] theorem dropInput_txbuf : (dropInput s).txbuf = s.txbuf := rfl
@[simp] theorem dropInput_rxbuf : (dropInput s).rxbuf = s.rxbuf := rfl
@[simp] theorem dropInput_resp : (dropInput s).resp = s.resp := rfl
@[simp] theorem dropInput_drainbuf : (dropInput s).drainbuf = s.drainbuf := rfl
@[simp] theorem dropInput_txRate : (dropInput s).txRate = s.txRate := rfl
@[simp] theorem dropInput_rxRate : (dropInput s).rxRate = s.rxRate := rfl
@[simp] theorem dropInput_rxq : (dropInput s).rxq = s.rxq := rfl
@[simp] theorem dropInput_txStream : (dropInput s).txStream = s.txStream := rfl
@[simp] theorem dropInput_offers : (dropInput s).offers = s.offers := rfl
@[simp] theorem dropInput_response : (dropInput s).response = s.response := rfl
@[simp] theorem dropInput_events : (dropInput s).events = s.events := rfl
@[simp] theorem dropInput_responses : (dropInput s).responses = s.responses := rfl
@[simp] theorem dropInput_inputs : (dropInput s).inputs = s.inputs.tail := rfl
@[simp] theorem dropInput_freeMoves : (dropInput s).freeMoves = s.freeMoves := rfl

@[simp] theorem blockReset_phase : (blockReset s).phase = State.reset.phase := rfl
@[simp] theorem blockReset_operand : (blockReset s).operand = State.reset.operand := rfl
@[simp] theorem blockReset_txbuf : (blockReset s).txbuf = State.reset.txbuf := rfl
@[simp] theorem blockReset_rxbuf : (blockReset s).rxbuf = State.reset.rxbuf := rfl
@[simp] theorem blockReset_resp : (blockReset s).resp = State.reset.resp := rfl
@[simp] theorem blockReset_drainbuf : (blockReset s).drainbuf = State.reset.drainbuf := rfl
@[simp] theorem blockReset_txRate : (blockReset s).txRate = s.txRate := rfl
@[simp] theorem blockReset_rxRate : (blockReset s).rxRate = s.rxRate := rfl
@[simp] theorem blockReset_rxq : (blockReset s).rxq = s.rxq := rfl
@[simp] theorem blockReset_txStream : (blockReset s).txStream = s.txStream := rfl
@[simp] theorem blockReset_offers : (blockReset s).offers = s.offers := rfl
@[simp] theorem blockReset_response : (blockReset s).response = State.reset.response := rfl
@[simp] theorem blockReset_events : (blockReset s).events = s.events := rfl
@[simp] theorem blockReset_responses : (blockReset s).responses = s.responses := rfl
@[simp] theorem blockReset_inputs : (blockReset s).inputs = s.inputs := rfl
@[simp] theorem blockReset_freeMoves : (blockReset s).freeMoves = s.freeMoves := rfl

@[simp] theorem cutCall_phase (c : Cfg) (n : Nat) : (cutCall c n s).phase = s.phase := by unfold cutCall; split <;> rfl
@[simp] theorem cutCall_operand (c : Cfg) (n : Nat) : (cutCall c n s).operand = s.operand := by unfold cutCall; split <;> rfl
@[simp] theorem cutCall_txbuf (c : Cfg) (n : Nat) : (cutCall c n s).txbuf = s.txbuf := by unfold cutCall; split <;> rfl
@[simp] theorem cutCall_rxbuf (c : Cfg) (n : Nat) : (cutCall c n s).rxbuf = s.rxbuf := by unfold cutCall; split <;> rfl
@[simp] theorem cutCall_resp (c : Cfg) (n : Nat) : (cutCall c n s).resp = s.resp := by unfold cutCall; split <;> rfl
@[simp] theorem cutCall_drainbuf (c : Cfg) (n : Nat) : (cutCall c n s).drainbuf = s.drainbuf := by unfold cutCall; split <;> rfl
@[simp] theorem cutCall_txRate (c : Cfg) (n : Nat) : (cutCall c n s).txRate = s.txRate := by unfold cutCall; split <;> rfl
@[simp] theorem cutCall_rxRate (c : Cfg) (n : Nat) : (cutCall c n s).rxRate = s.rxRate := by unfold cutCall; split <;> rfl
@[simp] theorem cutCall_rxq (c : Cfg) (n : Nat) : (cutCall c n s).rxq = s.rxq := by unfold cutCall; split <;> rfl
@[simp] theorem cutCall_offers (c : Cfg) (n : Nat) : (cutCall c n s).offers = s.offers := by unfold cutCall; split <;> rfl
@[simp] theorem cutCall_response (c : Cfg) (n : Nat) : (cutCall c n s).response = s.response := by unfold cutCall; split <;> rfl
@[simp] theorem cutCall_events (c : Cfg) (n : Nat) : (cutCall c n s).events = s.events := by unfold cutCall; split <;> rfl
@[simp] theorem cutCall_responses (c : Cfg) (n : Nat) : (cutCall c n s).responses = s.responses := by unfold cutCall; split <;> rfl
@[simp] theorem cutCall_inputs (c : Cfg) (n : Nat) : (cutCall c n s).inputs = s.inputs := by unfold cutCall; split <;> rfl
@[simp] theorem cutCall_freeMoves (c : Cfg) (n : Nat) : (cutCall c n s).freeMoves = s.freeMoves := by unfold cutCall; split <;> rfl

@[simp] theorem transmit_phase (v : List Byte) : (transmit v s).phase = s.phase := rfl
@[simp] theorem transmit_operand (v : List Byte) : (transmit v s).operand = s.operand := rfl
@[simp] theorem transmit_txbuf (v : List Byte) : (transmit v s).txbuf = s.txbuf := rfl
@[simp] theorem transmit_rxbuf (v : List Byte) : (transmit v s).rxbuf = s.rxbuf := rfl
@[simp] theorem transmit_resp (v : List Byte) : (transmit v s).resp = s.resp := rfl
@[simp] theorem transmit_drainbuf (v : List Byte) : (transmit v s).drainbuf = s.drainbuf := rfl
@[simp] theorem transmit_txRate (v : List Byte) : (transmit v s).txRate = s.txRate := rfl
@[simp] theorem transmit_rxRate (v : List Byte) : (transmit v s).rxRate = s.rxRate := rfl
@[simp] theorem transmit_rxq (v : List Byte) : (transmit v s).rxq = s.rxq := rfl
@[simp] theorem transmit_txStream (v : List Byte) : (transmit v s).txStream = s.txStream ++ v.map fun b => { char := b, rate := s.txRate } := rfl
@[simp] theorem transmit_offers (v : List Byte) : (transmit v s).offers = s.offers := rfl
@[simp] theorem transmit_response (v : List Byte) : (transmit v s).response = s.response := rfl
@[simp] theorem transmit_events (v : List Byte) : (transmit v s).events = s.events := rfl
@[simp] theorem transmit_responses (v : List Byte) : (transmit v s).responses = s.responses := rfl
@[simp] theorem transmit_inputs (v : List Byte) : (transmit v s).inputs = s.inputs := rfl
@[simp] theorem transmit_freeMoves (v : List Byte) : (transmit v s).freeMoves = s.freeMoves := rfl

@[simp] theorem dropRx_phase (n : Nat) : (dropRx n s).phase = s.phase := rfl
@[simp] theorem dropRx_operand (n : Nat) : (dropRx n s).operand = s.operand := rfl
@[simp] theorem dropRx_txbuf (n : Nat) : (dropRx n s).txbuf = s.txbuf := rfl
@[simp] theorem dropRx_rxbuf (n : Nat) : (dropRx n s).rxbuf = s.rxbuf := rfl
@[simp] theorem dropRx_resp (n : Nat) : (dropRx n s).resp = s.resp := rfl
@[simp] theorem dropRx_drainbuf (n : Nat) : (dropRx n s).drainbuf = s.drainbuf := rfl
@[simp] theorem dropRx_txRate (n : Nat) : (dropRx n s).txRate = s.txRate := rfl
@[simp] theorem dropRx_rxRate (n : Nat) : (dropRx n s).rxRate = s.rxRate := rfl
@[simp] theorem dropRx_rxq (n : Nat) : (dropRx n s).rxq = s.rxq.drop n := rfl
@[simp] theorem dropRx_txStream (n : Nat) : (dropRx n s).txStream = s.txStream := rfl
@[simp] theorem dropRx_offers (n : Nat) : (dropRx n s).offers = s.offers := rfl
@[simp] theorem dropRx_response (n : Nat) : (dropRx n s).response = s.response := rfl
@[simp] theorem dropRx_events (n : Nat) : (dropRx n s).events = s.events := rfl
@[simp] theorem dropRx_responses (n : Nat) : (dropRx n s).responses = s.responses := rfl
@[simp] theorem dropRx_inputs (n : Nat) : (dropRx n s).inputs = s.inputs := rfl
@[simp] theorem dropRx_freeMoves (n : Nat) : (dropRx n s).freeMoves = s.freeMoves := rfl

@[simp] theorem fillDrainbuf_phase (bs : List Byte) : (fillDrainbuf bs s).phase = s.phase := rfl
@[simp] theorem fillDrainbuf_operand (bs : List Byte) : (fillDrainbuf bs s).operand = s.operand := rfl
@[simp] theorem fillDrainbuf_txbuf (bs : List Byte) : (fillDrainbuf bs s).txbuf = s.txbuf := rfl
@[simp] theorem fillDrainbuf_rxbuf (bs : List Byte) : (fillDrainbuf bs s).rxbuf = s.rxbuf := rfl
@[simp] theorem fillDrainbuf_resp (bs : List Byte) : (fillDrainbuf bs s).resp = s.resp := rfl
@[simp] theorem fillDrainbuf_drainbuf (bs : List Byte) : (fillDrainbuf bs s).drainbuf = bs ++ s.drainbuf.drop bs.length := rfl
@[simp] theorem fillDrainbuf_txRate (bs : List Byte) : (fillDrainbuf bs s).txRate = s.txRate := rfl
@[simp] theorem fillDrainbuf_rxRate (bs : List Byte) : (fillDrainbuf bs s).rxRate = s.rxRate := rfl
@[simp] theorem fillDrainbuf_rxq (bs : List Byte) : (fillDrainbuf bs s).rxq = s.rxq := rfl
@[simp] theorem fillDrainbuf_txStream (bs : List Byte) : (fillDrainbuf bs s).txStream = s.txStream := rfl
@[simp] theorem fillDrainbuf_offers (bs : List Byte) : (fillDrainbuf bs s).offers = s.offers := rfl
@[simp] theorem fillDrainbuf_response (bs : List Byte) : (fillDrainbuf bs s).response = s.response := rfl
@[simp] theorem fillDrainbuf_events (bs : List Byte) : (fillDrainbuf bs s).events = s.events := rfl
@[simp] theorem fillDrainbuf_responses (bs : List Byte) : (fillDrainbuf bs s).responses = s.responses := rfl
@[simp] theorem fillDrainbuf_inputs (bs : List Byte) : (fillDrainbuf bs s).inputs = s.inputs := rfl
@[simp] theorem fillDrainbuf_freeMoves (bs : List Byte) : (fillDrainbuf bs s).freeMoves = s.freeMoves := rfl

@[simp] theorem setResp_phase (r : Option Byte) : (setResp r s).phase = s.phase := rfl
@[simp] theorem setResp_operand (r : Option Byte) : (setResp r s).operand = s.operand := rfl
@[simp] theorem setResp_txbuf (r : Option Byte) : (setResp r s).txbuf = s.txbuf := rfl
@[simp] theorem setResp_rxbuf (r : Option Byte) : (setResp r s).rxbuf = s.rxbuf := rfl
@[simp] theorem setResp_resp (r : Option Byte) : (setResp r s).resp = r := rfl
@[simp] theorem setResp_drainbuf (r : Option Byte) : (setResp r s).drainbuf = s.drainbuf := rfl
@[simp] theorem setResp_txRate (r : Option Byte) : (setResp r s).txRate = s.txRate := rfl
@[simp] theorem setResp_rxRate (r : Option Byte) : (setResp r s).rxRate = s.rxRate := rfl
@[simp] theorem setResp_rxq (r : Option Byte) : (setResp r s).rxq = s.rxq := rfl
@[simp] theorem setResp_txStream (r : Option Byte) : (setResp r s).txStream = s.txStream := rfl
@[simp] theorem setResp_offers (r : Option Byte) : (setResp r s).offers = s.offers := rfl
@[simp] theorem setResp_response (r : Option Byte) : (setResp r s).response = s.response := rfl
@[simp] theorem setResp_events (r : Option Byte) : (setResp r s).events = s.events := rfl
@[simp] theorem setResp_responses (r : Option Byte) : (setResp r s).responses = s.responses := rfl
@[simp] theorem setResp_inputs (r : Option Byte) : (setResp r s).inputs = s.inputs := rfl
@[simp] theorem setResp_freeMoves (r : Option Byte) : (setResp r s).freeMoves = s.freeMoves := rfl

@[simp] theorem setTxbuf_phase (v : Chars) : (setTxbuf v s).phase = s.phase := rfl
@[simp] theorem setTxbuf_operand (v : Chars) : (setTxbuf v s).operand = s.operand := rfl
@[simp] theorem setTxbuf_txbuf (v : Chars) : (setTxbuf v s).txbuf = v := rfl
@[simp] theorem setTxbuf_rxbuf (v : Chars) : (setTxbuf v s).rxbuf = s.rxbuf := rfl
@[simp] theorem setTxbuf_resp (v : Chars) : (setTxbuf v s).resp = s.resp := rfl
@[simp] theorem setTxbuf_drainbuf (v : Chars) : (setTxbuf v s).drainbuf = s.drainbuf := rfl
@[simp] theorem setTxbuf_txRate (v : Chars) : (setTxbuf v s).txRate = s.txRate := rfl
@[simp] theorem setTxbuf_rxRate (v : Chars) : (setTxbuf v s).rxRate = s.rxRate := rfl
@[simp] theorem setTxbuf_rxq (v : Chars) : (setTxbuf v s).rxq = s.rxq := rfl
@[simp] theorem setTxbuf_txStream (v : Chars) : (setTxbuf v s).txStream = s.txStream := rfl
@[simp] theorem setTxbuf_offers (v : Chars) : (setTxbuf v s).offers = s.offers := rfl
@[simp] theorem setTxbuf_response (v : Chars) : (setTxbuf v s).response = s.response := rfl
@[simp] theorem setTxbuf_events (v : Chars) : (setTxbuf v s).events = s.events := rfl
@[simp] theorem setTxbuf_responses (v : Chars) : (setTxbuf v s).responses = s.responses := rfl
@[simp] theorem setTxbuf_inputs (v : Chars) : (setTxbuf v s).inputs = s.inputs := rfl
@[simp] theorem setTxbuf_freeMoves (v : Chars) : (setTxbuf v s).freeMoves = s.freeMoves := rfl

@[simp] theorem setRxbuf_phase (v : Chars) : (setRxbuf v s).phase = s.phase := rfl
@[simp] theorem setRxbuf_operand (v : Chars) : (setRxbuf v s).operand = s.operand := rfl
@[simp] theorem setRxbuf_txbuf (v : Chars) : (setRxbuf v s).txbuf = s.txbuf := rfl
@[simp] theorem setRxbuf_rxbuf (v : Chars) : (setRxbuf v s).rxbuf = v := rfl
@[simp] theorem setRxbuf_resp (v : Chars) : (setRxbuf v s).resp = s.resp := rfl
@[simp] theorem setRxbuf_drainbuf (v : Chars) : (setRxbuf v s).drainbuf = s.drainbuf := rfl
@[simp] theorem setRxbuf_txRate (v : Chars) : (setRxbuf v s).txRate = s.txRate := rfl
@[simp] theorem setRxbuf_rxRate (v : Chars) : (setRxbuf v s).rxRate = s.rxRate := rfl
@[simp] theorem setRxbuf_rxq (v : Chars) : (setRxbuf v s).rxq = s.rxq := rfl
@[simp] theorem setRxbuf_txStream (v : Chars) : (setRxbuf v s).txStream = s.txStream := rfl
@[simp] theorem setRxbuf_offers (v : Chars) : (setRxbuf v s).offers = s.offers := rfl
@[simp] theorem setRxbuf_response (v : Chars) : (setRxbuf v s).response = s.response := rfl
@[simp] theorem setRxbuf_events (v : Chars) : (setRxbuf v s).events = s.events := rfl
@[simp] theorem setRxbuf_responses (v : Chars) : (setRxbuf v s).responses = s.responses := rfl
@[simp] theorem setRxbuf_inputs (v : Chars) : (setRxbuf v s).inputs = s.inputs := rfl
@[simp] theorem setRxbuf_freeMoves (v : Chars) : (setRxbuf v s).freeMoves = s.freeMoves := rfl

@[simp] theorem wait_phase (t : Micros) : (wait t s).phase = s.phase := rfl
@[simp] theorem wait_operand (t : Micros) : (wait t s).operand = s.operand := rfl
@[simp] theorem wait_txbuf (t : Micros) : (wait t s).txbuf = s.txbuf := rfl
@[simp] theorem wait_rxbuf (t : Micros) : (wait t s).rxbuf = s.rxbuf := rfl
@[simp] theorem wait_resp (t : Micros) : (wait t s).resp = s.resp := rfl
@[simp] theorem wait_drainbuf (t : Micros) : (wait t s).drainbuf = s.drainbuf := rfl
@[simp] theorem wait_txRate (t : Micros) : (wait t s).txRate = s.txRate := rfl
@[simp] theorem wait_rxRate (t : Micros) : (wait t s).rxRate = s.rxRate := rfl
@[simp] theorem wait_rxq (t : Micros) : (wait t s).rxq = s.rxq := rfl
@[simp] theorem wait_txStream (t : Micros) : (wait t s).txStream = s.txStream := rfl
@[simp] theorem wait_offers (t : Micros) : (wait t s).offers = s.offers := rfl
@[simp] theorem wait_response (t : Micros) : (wait t s).response = s.response := rfl
@[simp] theorem wait_events (t : Micros) : (wait t s).events = s.events ++ [{ call := .wait t, outcome := .ok }] := rfl
@[simp] theorem wait_responses (t : Micros) : (wait t s).responses = s.responses := rfl
@[simp] theorem wait_inputs (t : Micros) : (wait t s).inputs = s.inputs := rfl
@[simp] theorem wait_freeMoves (t : Micros) : (wait t s).freeMoves = s.freeMoves := rfl

@[simp] theorem withRate_phase (k : Cap) (r : Rate) : (withRate k r s).phase = s.phase := by cases k <;> rfl
@[simp] theorem withRate_operand (k : Cap) (r : Rate) : (withRate k r s).operand = s.operand := by cases k <;> rfl
@[simp] theorem withRate_txbuf (k : Cap) (r : Rate) : (withRate k r s).txbuf = s.txbuf := by cases k <;> rfl
@[simp] theorem withRate_rxbuf (k : Cap) (r : Rate) : (withRate k r s).rxbuf = s.rxbuf := by cases k <;> rfl
@[simp] theorem withRate_resp (k : Cap) (r : Rate) : (withRate k r s).resp = s.resp := by cases k <;> rfl
@[simp] theorem withRate_drainbuf (k : Cap) (r : Rate) : (withRate k r s).drainbuf = s.drainbuf := by cases k <;> rfl
@[simp] theorem withRate_rxq (k : Cap) (r : Rate) : (withRate k r s).rxq = s.rxq := by cases k <;> rfl
@[simp] theorem withRate_txStream (k : Cap) (r : Rate) : (withRate k r s).txStream = s.txStream := by cases k <;> rfl
@[simp] theorem withRate_offers (k : Cap) (r : Rate) : (withRate k r s).offers = s.offers := by cases k <;> rfl
@[simp] theorem withRate_response (k : Cap) (r : Rate) : (withRate k r s).response = s.response := by cases k <;> rfl
@[simp] theorem withRate_events (k : Cap) (r : Rate) : (withRate k r s).events = s.events := by cases k <;> rfl
@[simp] theorem withRate_responses (k : Cap) (r : Rate) : (withRate k r s).responses = s.responses := by cases k <;> rfl
@[simp] theorem withRate_inputs (k : Cap) (r : Rate) : (withRate k r s).inputs = s.inputs := by cases k <;> rfl
@[simp] theorem withRate_freeMoves (k : Cap) (r : Rate) : (withRate k r s).freeMoves = s.freeMoves := by cases k <;> rfl
@[simp] theorem withRate_tx_txRate (r : Rate) : (withRate .tx r s).txRate = r := rfl
@[simp] theorem withRate_tx_rxRate (r : Rate) : (withRate .tx r s).rxRate = s.rxRate := rfl
@[simp] theorem withRate_rx_txRate (r : Rate) : (withRate .rx r s).txRate = s.txRate := rfl
@[simp] theorem withRate_rx_rxRate (r : Rate) : (withRate .rx r s).rxRate = r := rfl

@[simp] theorem takeMove_phase : (takeMove s).phase = s.phase := by unfold takeMove; split <;> rfl
@[simp] theorem takeMove_operand : (takeMove s).operand = s.operand := by unfold takeMove; split <;> rfl
@[simp] theorem takeMove_txbuf : (takeMove s).txbuf = s.txbuf := by unfold takeMove; split <;> rfl
@[simp] theorem takeMove_rxbuf : (takeMove s).rxbuf = s.rxbuf := by unfold takeMove; split <;> rfl
@[simp] theorem takeMove_resp : (takeMove s).resp = s.resp := by unfold takeMove; split <;> rfl
@[simp] theorem takeMove_drainbuf : (takeMove s).drainbuf = s.drainbuf := by unfold takeMove; split <;> rfl
@[simp] theorem takeMove_txRate : (takeMove s).txRate = s.txRate := by unfold takeMove; split <;> rfl
@[simp] theorem takeMove_rxRate : (takeMove s).rxRate = s.rxRate := by unfold takeMove; split <;> rfl
@[simp] theorem takeMove_txStream : (takeMove s).txStream = s.txStream := by unfold takeMove; split <;> rfl
@[simp] theorem takeMove_offers : (takeMove s).offers = s.offers := by unfold takeMove; split <;> rfl
@[simp] theorem takeMove_response : (takeMove s).response = s.response := by unfold takeMove; split <;> rfl
@[simp] theorem takeMove_events : (takeMove s).events = s.events := by unfold takeMove; split <;> rfl
@[simp] theorem takeMove_responses : (takeMove s).responses = s.responses := by unfold takeMove; split <;> rfl
@[simp] theorem takeMove_rxq : (takeMove s).rxq = s.rxq ++ (nextMove s).arrivals := by
  unfold takeMove nextMove; split <;> simp_all

end Sys2Proof.Machine
end

