-- ==== Sys2Proof/Laws/Ops.lean ====
section
/-! SUPPORT. What each shared operation can do, said once: the primitives, each phase step, and the step of the machine. -/

namespace Sys2Proof.Machine

/-! ### The environment's moves -/

theorem nextMove_of_inputs {s : State} {m : EnvMove} {rest : List EnvInput} (h : s.inputs = .move m :: rest) :
    nextMove s = m := by
  simp [nextMove, h]

theorem takeMove_of_inputs {s : State} {m : EnvMove} {rest : List EnvInput} (h : s.inputs = .move m :: rest) :
    takeMove s = { s with rxq := s.rxq ++ m.arrivals, inputs := rest } := by
  simp [takeMove, h]

/-! ### The primitives -/

theorem setRate_cases (k : Cap) (r : Rate) (m : EnvMove) (s : State) :
    (m.setRate = .ok ∧ setRate k r m s = (.ok, logEvent (.setRate k r) .ok (withRate k r s))) ∨
    (∃ left, m.setRate = .fail left ∧
      setRate k r m s = (.fail, logEvent (.setRate k r) .fail (withRate k left s))) := by
  unfold setRate
  cases h : m.setRate <;> simp

theorem memWrite_cases (v : List Byte) (m : EnvMove) (s : State) :
    (m.write = .ok ∧ memWrite v m s = some (.ok, logEvent (.memWrite v) .ok (transmit v s))) ∨
    (∃ n, m.write = .fail n ∧
      memWrite v m s = some (.fail, logEvent (.memWrite v) .fail (transmit (v.take n) s))) ∨
    (m.write = .waiting ∧ memWrite v m s = none) := by
  unfold memWrite
  cases h : m.write <;> simp

theorem readArrived_cases (n : Nat) (s : State) :
    (n ≤ s.rxq.length ∧ readArrived n s =
      some (.bytes (s.rxq.take n), logEvent (.memRead n) (.bytes (s.rxq.take n)) (dropRx n s))) ∨
    (s.rxq.length < n ∧ readArrived n s = none) := by
  unfold readArrived
  by_cases h : n ≤ s.rxq.length
  · exact .inl ⟨h, by simp [h]⟩
  · exact .inr ⟨by omega, by simp [h]⟩

/-- A read of `n` bytes delivers them, fails, runs out of its bound before they are there, or has not returned. -/
theorem memRead_cases (c : Cfg) (n : Nat) (m : EnvMove) (s : State) :
    (n ≤ s.rxq.length ∧ (∀ k, m.readExact ≠ .fail k) ∧ memRead c n m s =
      some (.bytes (s.rxq.take n), logEvent (.memRead n) (.bytes (s.rxq.take n)) (dropRx n s))) ∨
    (∃ k, m.readExact = .fail k ∧
      memRead c n m s = some (.fail, logEvent (.memRead n) .fail (dropRx (min k n) s))) ∨
    (∃ k, m.readExact = .timeout k ∧ c.slotReadTimeout ≠ none ∧ s.rxq.length < n ∧
      memRead c n m s = some (.timeout, logEvent (.memRead n) .timeout (dropRx (min k n) s))) ∨
    (s.rxq.length < n ∧ (∀ k, m.readExact ≠ .fail k) ∧
      (c.slotReadTimeout ≠ none → ∀ k, m.readExact ≠ .timeout k) ∧ memRead c n m s = none) := by
  have h := readArrived_cases n s
  unfold memRead
  cases hm : m.readExact with
  | arrive => rcases h with ⟨h1, h2⟩ | ⟨h1, h2⟩ <;> simp [h1, h2]
  | fail k => simp
  | timeout k =>
    by_cases hb : c.slotReadTimeout ≠ none ∧ s.rxq.length < n
    · simp [hb]
    · rcases h with ⟨h1, h2⟩ | ⟨h1, h2⟩
      · simp [h1, h2, hb]
      · have hc : c.slotReadTimeout = none := by simpa [h1] using hb
        simp [h1, h2, hc]

theorem rxReadSome_cases (len : Nat) (bound : Micros) (m : EnvMove) (s : State) :
    (∃ n, m.readSome = .bytes n ∧ rxReadSome len bound m s =
      (.bytes (s.rxq.take (min n len)),
        logEvent (.rxReadSome len bound) (.bytes (s.rxq.take (min n len))) (dropRx (min n len) s))) ∨
    (m.readSome = .timeout ∧
      rxReadSome len bound m s = (.timeout, logEvent (.rxReadSome len bound) .timeout s)) ∨
    (∃ n, m.readSome = .fail n ∧
      rxReadSome len bound m s = (.fail, logEvent (.rxReadSome len bound) .fail (dropRx (min n len) s))) := by
  unfold rxReadSome
  cases h : m.readSome <;> simp

/-! ### Block reset -/

theorem resetDue_iff (s : State) : resetDue s = true ↔ ∃ k rest, s.inputs = .blockReset k :: rest := by
  unfold resetDue
  split <;> simp_all

theorem cutCount_of_inputs {s : State} {k : Nat} {rest : List EnvInput} (h : s.inputs = .blockReset k :: rest) :
    cutCount s = k := by
  simp [cutCount, h]

/-- A call that is cut leaves the first characters of a write on the wire, and else nothing. -/
theorem cutCall_cases (c : Cfg) (n : Nat) (s : State) :
    (∃ v, outstandingCall c s = some (.memWrite v) ∧ cutCall c n s = transmit (v.take n) s) ∨
    ((∀ v, outstandingCall c s ≠ some (.memWrite v)) ∧ cutCall c n s = s) := by
  unfold cutCall
  split
  · rename_i v h
    exact .inl ⟨v, h, rfl⟩
  · rename_i h
    exact .inr ⟨h, rfl⟩

/-! ### The step of the machine -/

/-- Everything one step can do. -/
theorem step_cases {s t : State} (h : step s = .next t) :
    (resetDue s = true ∧ t = blockReset (cutCall Config.owbt (cutCount s) (dropInput s))) ∨
    (resetDue s = false ∧ fetchWord s = none ∧ t = phaseStep Config.owbt s) ∨
    (∃ w i, resetDue s = false ∧ fetchWord s = some w ∧ decode w = .ok i ∧ exec i (takeOffer s) = .next t) := by
  unfold step at h
  split at h
  · rename_i hr
    exact .inl ⟨hr, by simpa using h.symm⟩
  · rename_i hr
    have hr' : resetDue s = false := by simpa using hr
    split at h
    · rename_i hf
      exact .inr (.inl ⟨hr', hf, by simpa using h.symm⟩)
    · rename_i w hf
      split at h
      · rename_i i hd
        exact .inr (.inr ⟨w, i, hr', hf, hd, h⟩)
      · cases h

/-- A word is fetched only in `IDLE`, and it is the first one the host holds. -/
theorem fetchWord_some {s : State} {w : CommandWord} (h : fetchWord s = some w) :
    s.phase = .idle ∧ s.offers.head? = some w := by
  unfold fetchWord at h
  split at h
  · exact ⟨‹_›, h⟩
  · cases h

theorem fetchWord_busy {s : State} (h : s.phase ≠ .idle) : fetchWord s = none := by
  unfold fetchWord
  split
  · contradiction
  · rfl

/-! ### Accepting a command -/

/-- Everything a command's acceptance can do in `IDLE`: the first phase, and the operand of a byte exchange. -/
theorem exec_idle {i : Instr} {s t : State} (hp : s.phase = .idle) (h : exec i s = .next t) :
    t = accept .rstSlowTx s ∨ ∃ v, t = accept .xchEncode (setOperand v s) := by
  cases i <;> simp only [exec, execReset, execWriteReadByte, execReadByte, hp] at h
  · exact .inl (by simpa using h.symm)
  · exact .inr ⟨_, by simpa using h.symm⟩
  · exact .inr ⟨_, by simpa using h.symm⟩

/-- Outside `IDLE` no command is accepted, and the word has no effect (R27). -/
theorem exec_busy {s : State} (hp : s.phase ≠ .idle) (i : Instr) : exec i s = .next s := by
  cases i <;> simp only [exec, execReset, execWriteReadByte, execReadByte]

end Sys2Proof.Machine
end

