-- ==== Sys2Proof/Laws/Phases.lean ====
section
/-! SUPPORT. Everything the step of each phase can do: one inversion lemma per phase. -/

namespace Sys2Proof.Machine

/-- R152. -/
theorem rstSlowTx_cases (s : State) :
    ((nextMove s).setRate = .ok ∧
      rstSlowTx s = goto .rstSlowRx (logEvent (.setRate .tx .slow) .ok (withRate .tx .slow (takeMove s)))) ∨
    (∃ left, (nextMove s).setRate = .fail left ∧
      rstSlowTx s =
        raise .configurationFailed (logEvent (.setRate .tx .slow) .fail (withRate .tx left (takeMove s)))) := by
  rcases setRate_cases .tx .slow (nextMove s) (takeMove s) with ⟨hm, h⟩ | ⟨left, hm, h⟩
  · exact .inl ⟨hm, by simp only [rstSlowTx, h]⟩
  · exact .inr ⟨left, hm, by simp only [rstSlowTx, h]⟩

/-- R153. -/
theorem rstSlowRx_cases (s : State) :
    ((nextMove s).setRate = .ok ∧
      rstSlowRx s = goto .rstDrain (logEvent (.setRate .rx .slow) .ok (withRate .rx .slow (takeMove s)))) ∨
    (∃ left, (nextMove s).setRate = .fail left ∧
      rstSlowRx s =
        raise .configurationFailed (logEvent (.setRate .rx .slow) .fail (withRate .rx left (takeMove s)))) := by
  rcases setRate_cases .rx .slow (nextMove s) (takeMove s) with ⟨hm, h⟩ | ⟨left, hm, h⟩
  · exact .inl ⟨hm, by simp only [rstSlowRx, h]⟩
  · exact .inr ⟨left, hm, by simp only [rstSlowRx, h]⟩

/-- R158. -/
theorem rstFastTx_cases (s : State) :
    ((nextMove s).setRate = .ok ∧
      rstFastTx s = goto .rstFastRx (logEvent (.setRate .tx .fast) .ok (withRate .tx .fast (takeMove s)))) ∨
    (∃ left, (nextMove s).setRate = .fail left ∧
      rstFastTx s =
        raise .configurationFailed (logEvent (.setRate .tx .fast) .fail (withRate .tx left (takeMove s)))) := by
  rcases setRate_cases .tx .fast (nextMove s) (takeMove s) with ⟨hm, h⟩ | ⟨left, hm, h⟩
  · exact .inl ⟨hm, by simp only [rstFastTx, h]⟩
  · exact .inr ⟨left, hm, by simp only [rstFastTx, h]⟩

/-- R159. -/
theorem rstFastRx_cases (s : State) :
    ((nextMove s).setRate = .ok ∧
      rstFastRx s = goto .rstClassify (logEvent (.setRate .rx .fast) .ok (withRate .rx .fast (takeMove s)))) ∨
    (∃ left, (nextMove s).setRate = .fail left ∧
      rstFastRx s =
        raise .configurationFailed (logEvent (.setRate .rx .fast) .fail (withRate .rx left (takeMove s)))) := by
  rcases setRate_cases .rx .fast (nextMove s) (takeMove s) with ⟨hm, h⟩ | ⟨left, hm, h⟩
  · exact .inl ⟨hm, by simp only [rstFastRx, h]⟩
  · exact .inr ⟨left, hm, by simp only [rstFastRx, h]⟩

/-- R154. The read delivered at least one byte, or none, or did not deliver. -/
theorem rstDrain_cases (c : Cfg) (s : State) :
    (∃ n bs, (nextMove s).readSome = .bytes n ∧ bs = (takeMove s).rxq.take (min n c.drainBufLen) ∧ bs ≠ [] ∧
      rstDrain c s = goto .rstDrain (fillDrainbuf bs (logEvent (.rxReadSome c.drainBufLen c.tDrain) (.bytes bs)
        (dropRx (min n c.drainBufLen) (takeMove s))))) ∨
    (∃ n, (nextMove s).readSome = .bytes n ∧ (takeMove s).rxq.take (min n c.drainBufLen) = [] ∧
      rstDrain c s = goto .rstPulse (logEvent (.rxReadSome c.drainBufLen c.tDrain) (.bytes [])
        (dropRx (min n c.drainBufLen) (takeMove s)))) ∨
    ((nextMove s).readSome = .timeout ∧
      rstDrain c s = goto .rstPulse (logEvent (.rxReadSome c.drainBufLen c.tDrain) .timeout (takeMove s))) ∨
    (∃ n, (nextMove s).readSome = .fail n ∧
      rstDrain c s = goto .rstPulse (logEvent (.rxReadSome c.drainBufLen c.tDrain) .fail
        (dropRx (min n c.drainBufLen) (takeMove s)))) := by
  rcases rxReadSome_cases c.drainBufLen c.tDrain (nextMove s) (takeMove s) with
    ⟨n, hm, h⟩ | ⟨hm, h⟩ | ⟨n, hm, h⟩
  · cases hb : (takeMove s).rxq.take (min n c.drainBufLen) with
    | nil => exact .inr (.inl ⟨n, hm, hb, by simp only [rstDrain, h, hb]⟩)
    | cons b bs => exact .inl ⟨n, b :: bs, hm, hb.symm, by simp, by simp only [rstDrain, h, hb]⟩
  · exact .inr (.inr (.inl ⟨hm, by simp only [rstDrain, h]⟩))
  · exact .inr (.inr (.inr ⟨n, hm, by simp only [rstDrain, h]⟩))

/-- R155. -/
theorem rstPulse_cases (c : Cfg) (s : State) :
    ((nextMove s).write = .ok ∧
      rstPulse c s = goto .rstWait (logEvent (.memWrite [c.resetChar]) .ok (transmit [c.resetChar] (takeMove s)))) ∨
    (∃ n, (nextMove s).write = .fail n ∧
      rstPulse c s =
        raise .transmitFailed (logEvent (.memWrite [c.resetChar]) .fail (transmit (([c.resetChar] : List Byte).take n) (takeMove s)))) ∨
    ((nextMove s).write = .waiting ∧ rstPulse c s = takeMove s) := by
  rcases memWrite_cases [c.resetChar] (nextMove s) (takeMove s) with ⟨hm, h⟩ | ⟨n, hm, h⟩ | ⟨hm, h⟩
  · exact .inl ⟨hm, by simp only [rstPulse, h]⟩
  · exact .inr (.inl ⟨n, hm, by simp only [rstPulse, h]⟩)
  · exact .inr (.inr ⟨hm, by simp only [rstPulse, h]⟩)

/-- R183. -/
theorem xchTx_cases (s : State) :
    ((nextMove s).write = .ok ∧
      xchTx s = goto .xchRx (logEvent (.memWrite s.txbuf.toList) .ok (transmit s.txbuf.toList (takeMove s)))) ∨
    (∃ n, (nextMove s).write = .fail n ∧
      xchTx s =
        raise .transmitFailed (logEvent (.memWrite s.txbuf.toList) .fail (transmit ((s.txbuf.toList : List Byte).take n) (takeMove s)))) ∨
    ((nextMove s).write = .waiting ∧ xchTx s = takeMove s) := by
  rcases memWrite_cases s.txbuf.toList (nextMove s) (takeMove s) with ⟨hm, h⟩ | ⟨n, hm, h⟩ | ⟨hm, h⟩
  · exact .inl ⟨hm, by simp only [xchTx, h]⟩
  · exact .inr (.inl ⟨n, hm, by simp only [xchTx, h]⟩)
  · exact .inr (.inr ⟨hm, by simp only [xchTx, h]⟩)

/-- R157. -/
theorem rstSample_cases (c : Cfg) (s : State) :
    (∃ n bs, (nextMove s).readSome = .bytes n ∧ bs = (takeMove s).rxq.take (min n 1) ∧
      rstSample c s = goto .rstFastTx (setResp bs.head? (logEvent (.rxReadSome 1 c.tPresence) (.bytes bs)
        (dropRx (min n 1) (takeMove s))))) ∨
    ((nextMove s).readSome = .timeout ∧
      rstSample c s = goto .rstFastTx (setResp none (logEvent (.rxReadSome 1 c.tPresence) .timeout (takeMove s)))) ∨
    (∃ n, (nextMove s).readSome = .fail n ∧
      rstSample c s = goto .rstFastTx (setResp none (logEvent (.rxReadSome 1 c.tPresence) .fail
        (dropRx (min n 1) (takeMove s))))) := by
  rcases rxReadSome_cases 1 c.tPresence (nextMove s) (takeMove s) with ⟨n, hm, h⟩ | ⟨hm, h⟩ | ⟨n, hm, h⟩
  · exact .inl ⟨n, _, hm, rfl, by simp only [rstSample, h]⟩
  · exact .inr (.inl ⟨hm, by simp only [rstSample, h]⟩)
  · exact .inr (.inr ⟨n, hm, by simp only [rstSample, h]⟩)

/-- R184. Eight bytes, a failure, a bound that expired before them, or a call that has not returned. -/
theorem xchRx_cases (c : Cfg) (s : State) :
    (slots ≤ (takeMove s).rxq.length ∧
      xchRx c s = goto .xchDecode (setRxbuf (charsOf ((takeMove s).rxq.take slots))
        (logEvent (.memRead slots) (.bytes ((takeMove s).rxq.take slots)) (dropRx slots (takeMove s)))) ∧
      ∀ n, (nextMove s).readExact ≠ .fail n) ∨
    (∃ n, (nextMove s).readExact = .fail n ∧
      xchRx c s = raise .receiveFailed (logEvent (.memRead slots) .fail (dropRx (min n slots) (takeMove s)))) ∨
    (∃ n, (nextMove s).readExact = .timeout n ∧ c.slotReadTimeout ≠ none ∧ (takeMove s).rxq.length < slots ∧
      xchRx c s = raise .receiveTimeout (logEvent (.memRead slots) .timeout (dropRx (min n slots) (takeMove s)))) ∨
    ((takeMove s).rxq.length < slots ∧ xchRx c s = takeMove s ∧ (∀ n, (nextMove s).readExact ≠ .fail n) ∧
      (c.slotReadTimeout ≠ none → ∀ n, (nextMove s).readExact ≠ .timeout n)) := by
  rcases memRead_cases c slots (nextMove s) (takeMove s) with
    ⟨hl, hf, h⟩ | ⟨n, hm, h⟩ | ⟨n, hm, hc, hl, h⟩ | ⟨hl, hf, ht, h⟩
  · exact .inl ⟨hl, by simp only [xchRx, h], hf⟩
  · exact .inr (.inl ⟨n, hm, by simp only [xchRx, h]⟩)
  · exact .inr (.inr (.inl ⟨n, hm, hc, hl, by simp only [xchRx, h]⟩))
  · exact .inr (.inr (.inr ⟨hl, by simp only [xchRx, h], hf, ht⟩))

end Sys2Proof.Machine
end

