-- ==== Sys2Proof/Laws/Echo.lean ====
section
/-! SUPPORT. What a step sends and what is appended to `RXQ` in it, said once, and the readbacks of `ENV_REF`. -/

namespace Sys2Proof.Machine

/-! ### The moves of the environment -/

theorem takesMove_iff (s : State) :
    takesMove s = true ↔
      resetDue s = false ∧ fetchWord s = none ∧ (s.phase = .idle ∨ outstandingCall Config.owbt s ≠ none) := by
  simp [takesMove, Option.isSome_iff_ne_none, and_assoc]

theorem step_of_takesMove {s : State} (h : takesMove s = true) : step s = .next (phaseStep Config.owbt s) := by
  obtain ⟨h1, h2, _⟩ := (takesMove_iff s).1 h
  simp [step, h1, h2]

theorem refState_takesMove {e : EnvRef} {s : State} (h : takesMove s = true) : takesMove (refState e s) = true := by
  rw [takesMove_iff] at *
  obtain ⟨h1, h2, h3⟩ := h
  simp only [refState, (takesMove_iff s).2 ⟨h1, h2, h3⟩, if_true]
  exact ⟨rfl, h2, h3⟩

/-! ### What a step sends -/

/-- A block reset that is due sends only what the write it cuts has sent. -/
theorem sentAt_of_reset {s : State} (h : resetDue s = true) :
    sentAt s = ((writingAt s).take (cutCount s)).map fun x => { char := x, rate := s.txRate } := by
  simp only [sentAt, step, h, if_true, writingAt]
  rcases cutCall_cases Config.owbt (cutCount s) (dropInput s) with ⟨v, hv, he⟩ | ⟨hv, he⟩
  · rw [show outstandingCall Config.owbt s = some (.memWrite v) from hv, he]
    simp
  · rw [he]
    split
    · exact absurd ‹_› (hv _)
    · simp

/-- Where no move is taken and no block reset is due nothing is sent. -/
theorem sentAt_of_no_move {s : State} (h : takesMove s = false) (hr : resetDue s = false) : sentAt s = [] := by
  unfold sentAt
  cases hs : step s with
  | fault f => rfl
  | refused r => rfl
  | next t =>
    suffices t.txStream = s.txStream by simp [this]
    rcases step_cases hs with ⟨h1, _⟩ | ⟨h1, h2, rfl⟩ | ⟨w, i, _, hf, _, he⟩
    · simp [h1] at hr
    · have hc : s.phase ≠ .idle ∧ outstandingCall Config.owbt s = none := by
        have := mt (takesMove_iff s).2 (by simp [h])
        simpa [h1, h2] using this
      cases hp : s.phase <;> simp_all [outstandingCall] <;> simp [phaseStep, hp, rstClassify, xchEncode, xchDecode]
    · rcases exec_idle (by simpa using (fetchWord_some hf).1) he with rfl | ⟨v, rfl⟩ <;> simp

/-- Where a move is taken, only an outstanding write sends: all its characters, some of the first, or none yet. -/
theorem sentAt_of_move {s : State} (h : takesMove s = true) :
    (∃ v, outstandingCall Config.owbt s = some (.memWrite v) ∧ writingAt s = v ∧
      (((nextMove s).write = .ok ∧ sentAt s = v.map fun x => { char := x, rate := s.txRate }) ∨
       (∃ n, (nextMove s).write = .fail n ∧ sentAt s = (v.take n).map fun x => { char := x, rate := s.txRate }) ∨
       ((nextMove s).write = .waiting ∧ sentAt s = []))) ∨
    ((∀ v, outstandingCall Config.owbt s ≠ some (.memWrite v)) ∧ sentAt s = []) := by
  simp only [sentAt, step_of_takesMove h, writingAt]
  have hb := ((takesMove_iff s).1 h).2.2
  cases hp : s.phase <;> simp only [phaseStep, hp, outstandingCall] at hb ⊢
  · simp
  · rcases rstSlowTx_cases s with ⟨_, h⟩ | ⟨_, _, h⟩ <;> simp [h]
  · rcases rstSlowRx_cases s with ⟨_, h⟩ | ⟨_, _, h⟩ <;> simp [h]
  · rcases rstDrain_cases Config.owbt s with ⟨_, _, _, _, _, h⟩ | ⟨_, _, _, h⟩ | ⟨_, h⟩ | ⟨_, _, h⟩ <;> simp [h]
  · rcases rstPulse_cases Config.owbt s with ⟨hm, h⟩ | ⟨_, hm, h⟩ | ⟨hm, h⟩ <;> simp [h, hm]
  · simp [rstWait]
  · rcases rstSample_cases Config.owbt s with ⟨_, _, _, _, h⟩ | ⟨_, h⟩ | ⟨_, _, h⟩ <;> simp [h]
  · rcases rstFastTx_cases s with ⟨_, h⟩ | ⟨_, _, h⟩ <;> simp [h]
  · rcases rstFastRx_cases s with ⟨_, h⟩ | ⟨_, _, h⟩ <;> simp [h]
  · simp at hb
  · simp at hb
  · rcases xchTx_cases s with ⟨hm, h⟩ | ⟨_, hm, h⟩ | ⟨hm, h⟩ <;> simp [h, hm]
  · rcases xchRx_cases Config.owbt s with ⟨_, h, _⟩ | ⟨_, _, h⟩ | ⟨_, _, _, _, h⟩ | ⟨_, h, _⟩ <;> simp [h]
  · simp at hb

/-! ### Runs -/

theorem run_succ_of_next {n : Nat} {s t : State} (h : step s = .next t) : run (n + 1) s = run n t := by
  show Host.Core.run core (n + 1) s = _
  simp only [Host.Core.run, show core.step s = .next t from h]
  rfl

theorem run_succ_of_refused {n : Nat} {s : State} {r : Refusal} (h : step s = .refused r) :
    run (n + 1) s = .refused r := by
  show Host.Core.run core (n + 1) s = _
  simp only [Host.Core.run, show core.step s = .refused r from h]
  rfl

/-- The last step of a path is taken in the state that the run before it answers with. -/
theorem path_succ_last (n : Nat) : ∀ {s t : State}, run n s = .next t → path (n + 1) s = path n s ++ [t] := by
  induction n with
  | zero =>
    intro s t h
    cases h
    simp only [path, List.nil_append]
    split <;> rfl
  | succ n ih =>
    intro s t h
    cases hs : step s with
    | next u =>
      rw [run_succ_of_next hs] at h
      rw [path, hs, path, hs]
      simp only [ih h, List.cons_append]
    | fault f => cases f
    | refused r =>
      rw [run_succ_of_refused hs] at h
      cases h

/-! ### `ENV_REF` -/

@[simp] theorem readbacks_length (pulls v : List Byte) : (readbacks pulls v).length = v.length := by simp [readbacks]

theorem readbacks_append (pulls a b : List Byte) :
    readbacks pulls (a ++ b) = readbacks pulls a ++ readbacks (pulls.drop a.length) b := by
  simp only [readbacks, List.mapIdx_append]
  congr 2
  funext i x
  simp [Nat.add_comm]

theorem refMove_of_ok {e : EnvRef} {s : State} (hf : e.failing.contains (s.events.length + 1) = false) :
    refMove e s =
      match outstandingCall Config.owbt s with
      | some (.memWrite v) => { arrivals := readbacks e.pulls v }
      | some (.rxReadSome len _) =>
        { readSome := if s.rxq.isEmpty then .timeout else .bytes (min len s.rxq.length) }
      | _ => {} := by
  rw [refMove, hf]
  rfl

theorem refMove_of_failing {e : EnvRef} {s : State} (hf : e.failing.contains (s.events.length + 1) = true) :
    refMove e s = { setRate := .fail .other, write := .fail 0, readExact := .fail 0, readSome := .fail 0 } := by
  rw [refMove, hf]
  rfl

end Sys2Proof.Machine
end

