-- ==== Sys2Proof/Laws/PerInstr.lean ====
section
/-! SUPPORT. Facts about each command as syntax: its word meets its row of spec/opcode_table.json. -/

namespace Sys2Proof.Laws.OpcodeRow

/-- The canonical word of the command, under the table's mask, is the table's match, and its `OP` is the command's. -/
def Statement (i : Instr) : Prop :=
  encode i &&& opMask = i.matchBits ∧ CommandWord.op (encode i) = i.op

theorem reset : Statement .reset := by constructor <;> decide

theorem writeReadByte (data : Byte) : Statement (.writeReadByte data) := by
  constructor <;> (revert data; decide)

theorem readByte : Statement .readByte := by constructor <;> decide

end Sys2Proof.Laws.OpcodeRow
end

