-- ==== Sys2Proof/Tests/Slice0.lean ====
section
/-! SUPPORT. The model's own tests. Expected values are from spec/95_test_vectors.md and the spec's own examples, named at
each test, or are words written out from the encodings of 30_encoding.md. After the tests of each part stand the witnesses:
for each statement of Certificates/Slice0/Obligations.lean that has hypotheses, a state and operands that meet them. -/

namespace Sys2Proof.Tests

open Sys2Proof Sys2Proof.Machine

/-! ### Helpers -/

/-- A move of the environment in which nothing arrives and every call succeeds, a bounded read by running out. -/
def quiet : EnvMove := {}

/-- The state after block reset, in the phase `p`, with the environment's next moves `ms`. -/
def inPhase (p : Phase) (ms : List EnvMove) : State := { State.reset with phase := p, inputs := ms.map .move }

/-- The state after block reset, with the words the host will offer. -/
def offering (ws : List CommandWord) : State := { State.reset with offers := ws }

/-- The state a step answers with, where it answers one. -/
def after : Host.Outcome State Fault Refusal → Option State
  | .next s => some s
  | .fault _ => none
  | .refused _ => none

/-- What a step leaves of a property that can be compared. -/
def afterIs {α : Type} [DecidableEq α] (o : Host.Outcome State Fault Refusal) (f : State → α) (v : α) : Bool :=
  (after o).map f == some v

/-! ### Well-formedness -/

theorem test_wf_literal_255 : (ScriptLine.writeReadByte 255).wellFormed = true := by decide

/-- Not "a literal 0 to 255" (R108). -/
theorem test_wf_literal_256_refused :
    (ScriptLine.writeReadByte 256).wellFormed = false ∧ assemble (.writeReadByte 256) = none := by decide

theorem test_wf_config : Config.owbt.wellFormed = true := by decide

theorem test_wf_config_slots_refused : ({ Config.owbt with slotCount := 7 } : Cfg).wellFormed = false := by decide

theorem test_wf_config_drain_refused : ({ Config.owbt with drainBufLen := 0 } : Cfg).wellFormed = false := by decide

/-- One character period at 9600 bit/s is 1041.67 microseconds (R251). -/
theorem test_wf_config_wait_refused :
    ({ Config.owbt with tResetWait := 1041 } : Cfg).wellFormed = false ∧
    ({ Config.owbt with tResetWait := 1042 } : Cfg).wellFormed = true := by decide

theorem test_wf_instr (d : Byte) : Instr.wellFormed (.writeReadByte d) = true := rfl

/-! ### Decoding: words written out bit by bit from R91 and R92 -/

theorem test_decode_reset : decode 0b00_00000000#10 = .ok .reset := by decide

/-- `DATA` is ignored (95 part 2: `CW == 0x0A7`). -/
theorem test_decode_reset_data : decode 0b00_10100111#10 = .ok .reset := by decide

/-- `WRITE_READ_BYTE 0xA5`, `CW == 0x1A5` (S1). -/
theorem test_decode_exchange : decode 0b01_10100101#10 = .ok (.writeReadByte 0b10100101#8) := by decide

/-- `READ_BYTE`, `CW == 0x200`, and `CW == 0x2C3` (95 part 2). -/
theorem test_decode_read :
    decode 0b10_00000000#10 = .ok .readByte ∧ decode 0b10_11000011#10 = .ok .readByte := by decide

theorem test_decode_reserved :
    decode 0b11_00000000#10 = .error .reservedOp ∧ decode 0b11_11111111#10 = .error .reservedOp := by decide

theorem test_table_word :
    decodeTableWord 16 0x1A5 = some (.writeReadByte 0xA5) ∧ decodeTableWord 10 0x200 = some .readByte ∧
    decodeTableWord 16 0x000 = some .reset ∧ decodeTableWord 16 0x300 = none := by decide

theorem test_encode : encode .reset = 0x000 ∧ encode (.writeReadByte 0xCC) = 0x1CC ∧ encode .readByte = 0x200 := by
  decide

/-! ### Script lines (R108) -/

theorem test_read_line_hex :
    readLine ("WRITE_READ_BYTE 0xCC  ; CW 0x1CC".toList) = .command (.writeReadByte 0xCC) := by decide

theorem test_read_line_other :
    readLine ("WRITE_READ_BYTE 0b00000001".toList) = .command (.writeReadByte 1) ∧
    readLine ("WRITE_READ_BYTE 255".toList) = .command (.writeReadByte 255) ∧
    readLine ("RESET".toList) = .command .reset ∧ readLine ("READ_BYTE".toList) = .command .readByte ∧
    readLine ("; only a comment".toList) = .blank := by decide

theorem test_read_line_refused :
    readLine ("WRITE_READ_BYTE 256".toList) = .malformed ∧ readLine ("WRITE_READ_BYTE 0xGG".toList) = .malformed ∧
    readLine ("RESET 1".toList) = .malformed := by decide

/-! ### The bit codec and the classifier -/

/-- 95 part 2, the table of `ENC_BYTE`. -/
theorem test_enc_byte :
    (encByte Config.owbt 0xA5).toList = [0xFF, 0x00, 0xFF, 0x00, 0x00, 0xFF, 0x00, 0xFF] ∧
    (encByte Config.owbt 0x80).toList = [0x00, 0x00, 0x00, 0x00, 0x00, 0x00, 0x00, 0xFF] := by decide

/-- 95 part 2, the table of `DEC_BYTE`. -/
theorem test_dec_byte :
    decByte Config.owbt #v[0xFF, 0x00, 0xFF, 0xFE, 0xFF, 0xFF, 0x7F, 0xFF] = 0xB5 ∧
    decByte Config.owbt #v[0xFE, 0xFF, 0xFE, 0xFF, 0xFF, 0xFE, 0xFF, 0xFE] = 0x5A ∧
    decByte Config.owbt #v[0x12, 0x34, 0x56, 0x78, 0x9A, 0xBC, 0xDE, 0xF0] = 0x00 := by decide

/-- 95 part 2, the table of `CLASSIFY`. -/
theorem test_classify :
    classify Config.owbt (some 0x00) = true ∧ classify Config.owbt (some 0xE0) = true ∧
    classify Config.owbt (some 0xE1) = false ∧ classify Config.owbt (some 0xF0) = false ∧
    classify Config.owbt none = false := by decide

/-- 95 part 2: other thresholds, read from `CFG`. -/
theorem test_classify_thresholds :
    classify { Config.owbt with presLoMask := 0x03, presHiMask := 0xC0 } (some 0x0C) = true ∧
    classify { Config.owbt with presLoMask := 0x03, presHiMask := 0xC0 } (some 0xC0) = false ∧
    classify Config.owbt (some 0x0C) = false ∧ classify Config.owbt (some 0xC0) = true := by decide

/-- 95 part 0: 0x200, 0x400, 0x600, 0x800, 0x100. -/
theorem test_response_words :
    responseWord .configurationFailed false 0x00#8 = 0x200 ∧ responseWord .transmitFailed false 0x00#8 = 0x400 ∧
    responseWord .receiveFailed false 0x00#8 = 0x600 ∧ responseWord .receiveTimeout false 0x00#8 = 0x800 ∧
    responseWord .ok true 0x00#8 = 0x100 ∧ responseWord .ok false 0xA5#8 = 0x0A5 := by decide

/-- The timing table of R256: 520.83 microseconds low, 1041.67 and 86.81 a character, 694.44 eight slots. -/
theorem test_serial_figures :
    leadingLow Config.owbt.frame 0xF0 = 5 ∧ leadingLow Config.owbt.frame 0xFF = 1 ∧
    leadingLow Config.owbt.frame 0x00 = 9 ∧ bitTimesNs 5 9600 = 520833 ∧
    bitTimesNs (charBits Config.owbt.frame) 9600 = 1041666 ∧
    bitTimesNs (charBits Config.owbt.frame) 115200 = 86805 ∧
    bitTimesNs (8 * charBits Config.owbt.frame) 115200 = 694444 := by decide

theorem wit_ScriptLinesAssemble : 255 < 256 ∧ 256 ≤ 256 := by decide

/-- Both cases of a digit, a literal above 255 and one below, a line that is a command. -/
theorem wit_ScriptLinesRead :
    readLiteral "256".toList = some 256 ∧ readLiteral "0xcC".toList = some 0xCC ∧
    readLine "READ_BYTE ; ones".toList = .command .readByte ∧ digitValue 'F' = some 15 ∧ digitValue 'f' = some 15 ∧
    [true, false] ≠ [] ∧ 255 < 256 := by decide

theorem wit_EncodeByteSlots :
    (7 < 8 ∧ 0 < 8) ∧ encByte Config.owbt 0x80 = encByte Config.owbt 0x80 ∧
    0xFF ∈ (encByte Config.owbt 0x01).toList := by decide

theorem wit_DecodeByteBits :
    (∀ b ∈ (Vector.replicate 8 0xFF : Chars).toList, b = 0xFF) ∧
    (∀ b ∈ (Vector.replicate 8 0xFE : Chars).toList, b ≠ 0xFF) := by decide

theorem wit_CodecRoundTrip :
    Config.owbt.slot1Char = Config.owbt.nopull ∧ Config.owbt.slot0Char ≠ Config.owbt.nopull := by decide

/-- S2: `b == 0xA5`, slots 2 and 7 pulled. -/
theorem wit_PulledSlotsClearBits :
    ∀ (i : Nat) (h : i < 8),
      (#v[0xFF, 0x00, 0x00, 0x00, 0x00, 0xFF, 0x00, 0x00] : Chars)[i] =
        (encByte Config.owbt 0xA5)[i] &&& (#v[0xFF, 0xFF, 0x00, 0xFF, 0xFF, 0xFF, 0xFF, 0x00] : Chars)[i] := by decide

theorem wit_WireLawBoundsResult :
    ∀ (i : Nat) (h : i < 8),
      wireAnd (encByte Config.owbt 0xA5)[i] (#v[0xFF, 0x00, 0x00, 0x00, 0x00, 0xFF, 0x00, 0x00] : Chars)[i] = true := by
  decide

theorem wit_DecodeEncodeAgree :
    Instr.wellFormed (.writeReadByte 0xFF) = true ∧ decode 0x2FF#10 = .ok .readByte ∧
    0x0FF#10 &&& opMask = 0x000#10 ∧ 0x2FF#10 &&& opMask = 0x200#10 := by decide

/-! ### One step -/

/-- R27. -/
theorem test_accept_reset : afterIs (step (offering [0x0A7])) State.phase .rstSlowTx = true := by decide

/-- R27: `OPERAND <- DATA`, and the word leaves the host. -/
theorem test_accept_exchange :
    afterIs (step (offering [0x1A5, 0x200])) (fun t => (t.phase, t.operand, t.offers)) (.xchEncode, 0xA5, [0x200]) =
      true := by decide

/-- R27, R93: `OPERAND <- 0xFF` whatever `DATA` is. -/
theorem test_accept_read :
    afterIs (step (offering [0x2C3])) (fun t => (t.phase, t.operand)) (.xchEncode, 0xFF) = true := by decide

/-- R96. -/
theorem test_reserved_refused : step (offering [0x300]) = .refused (.reservedOpcode 0x300) := by rfl

/-- 95 part 2, the fault rows: `SetRate(RX, SLOW) = Fail` gives 0x200. -/
theorem test_rate_fault :
    afterIs (step (inPhase .rstSlowRx [{ setRate := .fail .other }])) (fun t => (t.phase, t.response, t.rxRate))
      (.idle, some 0x200, .other) = true := by decide

/-- P3: the first drain read of eleven stale bytes. -/
theorem test_drain_loops :
    afterIs (step (inPhase .rstDrain
        [{ arrivals := [0x12, 0x00, 0xFF, 0xFF, 0xFF, 0xFF, 0xFF, 0xFF, 0xFF, 0xFF, 0x7C], readSome := .bytes 8 }]))
      (fun t => (t.phase, t.rxq)) (.rstDrain, [0xFF, 0xFF, 0x7C]) = true := by decide

/-- R167 (a): the oldest byte is the response, the echo stays behind. -/
theorem test_sample_takes_one :
    afterIs (step (inPhase .rstSample [{ arrivals := [0x7C, 0xF0], readSome := .bytes 1 }]))
      (fun t => (t.phase, t.resp, t.rxq)) (.rstFastTx, some 0x7C, [0xF0]) = true := by decide

/-- P9: the failed write of the reset pulse gives 0x400 and leaves the rates alone. -/
theorem test_pulse_fault :
    afterIs (step { inPhase .rstPulse [{ write := .fail 0 }] with txRate := .slow, rxRate := .slow })
      (fun t => (t.phase, t.response, t.txRate, t.rxRate, t.txStream)) (.idle, some 0x400, .slow, .slow, []) = true := by
  decide

/-- P8: seven bytes are there, and the call does not return. -/
theorem test_read_waits :
    afterIs (step (inPhase .xchRx [{ arrivals := List.replicate 7 0xFF }]))
      (fun t => (t.phase, t.response, t.events)) (.xchRx, none, []) = true := by decide

/-- P7: the failed read gives 0x600; here it has removed three bytes. -/
theorem test_read_fault :
    afterIs (step (inPhase .xchRx [{ arrivals := List.replicate 8 0xFF, readExact := .fail 3 }]))
      (fun t => (t.phase, t.response, t.rxq)) (.idle, some 0x600, List.replicate 5 0xFF) = true := by decide

/-- 95 part 2: with `SLOT_READ_TIMEOUT` set, `Timeout` gives 0x800. -/
theorem test_read_timeout :
    (phaseStep { Config.owbt with slotReadTimeout := some 200 } (inPhase .xchRx [{ readExact := .timeout 0 }])).response =
      some 0x800 := by decide

/-- R204: the bound is no fault where the eight bytes are there. -/
theorem test_read_timeout_too_late :
    (phaseStep { Config.owbt with slotReadTimeout := some 200 }
      (inPhase .xchRx [{ arrivals := List.replicate 8 0xFF, readExact := .timeout 0 }])).phase = .xchDecode := by decide

/-- R138, 95 part 2: `WRITE_READ_BYTE 0x00` with eight readbacks 0xFF gives 0x0FF. -/
theorem test_decode_ignores_operand :
    afterIs (step { inPhase .xchDecode [] with rxbuf := Vector.replicate 8 0xFF }) State.response (some 0x0FF) = true := by
  decide

/-! ### Witnesses: steps and commands -/

theorem wit_StepRunsDecodedCommand :
    (offering [0x1A5]).phase = .idle ∧ (∀ k, (offering [0x1A5]).inputs.head? ≠ some (.blockReset k)) ∧
    (offering [0x1A5]).offers = 0x1A5 :: [] ∧ decode 0x1A5#10 = .ok (.writeReadByte 0xA5) :=
  ⟨rfl, nofun, rfl, by decide⟩

theorem wit_StepElsewhere :
    ({ State.reset with inputs := [.blockReset 3] } : State).inputs = .blockReset 3 :: [] ∧
    ((∀ k, State.reset.inputs.head? ≠ some (.blockReset k)) ∧ State.reset.phase = .idle ∧ State.reset.offers = []) ∧
    ((∀ k, (inPhase .xchTx []).inputs.head? ≠ some (.blockReset k)) ∧ (inPhase .xchTx []).phase ≠ .idle) :=
  ⟨rfl, ⟨nofun, rfl, rfl⟩, nofun, nofun⟩

theorem wit_PlacedWordRuns : decodeTableWord 16 0x2FF = some .readByte := by decide

theorem wit_StopsExactlyOnReservedWords :
    (offering [0x3FF]).phase = .idle ∧ (∀ k, (offering [0x3FF]).inputs.head? ≠ some (.blockReset k)) ∧
    (offering [0x3FF]).offers = 0x3FF :: [] ∧ 0x3FF#10 &&& opMask = 0x300#10 :=
  ⟨rfl, nofun, rfl, by decide⟩

theorem wit_BusyIgnoresOffers :
    (inPhase .rstClassify []).phase ≠ .idle ∧ ∃ t, step (inPhase .rstClassify []) = .next t := ⟨by decide, _, rfl⟩

theorem wit_HistoryNeverRead : ∃ t, step (inPhase .xchTx [{ write := .ok }]) = .next t := ⟨_, rfl⟩

theorem wit_AcceptanceInIdle : State.reset.phase = .idle := rfl

theorem wit_CommandTurnedAwayWhenBusy : (inPhase .rstDrain []).phase ≠ .idle := by decide

/-- The moves of a bus reset: its drain reads that deliver, the last drain read and the presence read as given. -/
def resetMoves (drains : List EnvMove) (last sample : EnvMove) : List EnvMove :=
  [quiet, quiet] ++ drains ++ [last, quiet, quiet, sample, quiet, quiet]

/-- No drain read delivers, and the echo of the pulse is sampled. -/
theorem wit_ResetCompletes_no_drain :
    (inPhase .idle (resetMoves [] quiet { arrivals := [0xF0], readSome := .bytes 1 })).phase = .idle ∧
    (inPhase .idle (resetMoves [] quiet { arrivals := [0xF0], readSome := .bytes 1 })).inputs =
      ([quiet, quiet] ++ [] ++ [quiet, quiet, quiet, { arrivals := [0xF0], readSome := .bytes 1 }, quiet, quiet]).map .move ++
        [] ∧
    (∀ k, ([] : List EnvInput).head? ≠ some (.blockReset k)) ∧ quiet.setRate = .ok ∧ quiet.write = .ok ∧
    drained Config.owbt ([] ++ quiet.arrivals ++ quiet.arrivals) [] = some [] ∧
    delivered 8 quiet.readSome ([] ++ quiet.arrivals) = [] ∧
    leftBy 8 quiet.readSome ([] ++ quiet.arrivals) ++ [] ++ [] ++ [0xF0] = [0xF0] ∧
    delivered 1 (.bytes 1) [0xF0] = [0xF0] :=
  ⟨rfl, by decide, nofun, by decide⟩

/-- P3: eleven stale bytes, taken by two drain reads in which nothing arrives; the last drain read asks for bytes and finds
none. -/
theorem wit_ResetCompletes_stale :
    drained Config.owbt ([0x12, 0x00, 0xFF, 0xFF, 0xFF, 0xFF, 0xFF, 0xFF, 0xFF, 0xFF, 0x7C] ++ quiet.arrivals ++ quiet.arrivals)
      [{ readSome := .bytes 8 }, { readSome := .bytes 3 }] = some [] ∧
    delivered 8 ({ readSome := .bytes 8 } : EnvMove).readSome ([] ++ []) = [] := by decide

/-- A last drain read of no byte leaves what is there; one that fails may take some. -/
theorem wit_ResetCompletes_last_drain :
    delivered 8 (.bytes 0) [0x5A] = [] ∧ leftBy 8 (.bytes 0) [0x5A] = [0x5A] ∧
    delivered 8 (.fail 1) [0x5A] = [] ∧ leftBy 8 (.fail 1) [0x5A] = [] := by decide

/-- For `WRITE_READ_BYTE` and `READ_BYTE`: exactly eight bytes, three of them there before the readbacks come. -/
theorem wit_ExchangeCompletes :
    ({ inPhase .idle [{ arrivals := [0x01] }, { arrivals := [2, 3, 4, 5, 6] }] with rxq := [7, 8] } : State).phase =
      .idle ∧
    ({ inPhase .idle [{ arrivals := [0x01] }, { arrivals := [2, 3, 4, 5, 6] }] with rxq := [7, 8] } : State).inputs =
      .move { arrivals := [0x01] } :: .move { arrivals := [2, 3, 4, 5, 6] } :: [] ∧
    (∀ k, ([] : List EnvInput).head? ≠ some (.blockReset k)) ∧ ({ arrivals := [0x01] } : EnvMove).write = .ok ∧
    ({ arrivals := [2, 3, 4, 5, 6] } : EnvMove).readExact = .arrive ∧
    8 ≤ (([7, 8] : List Byte) ++ [0x01] ++ [2, 3, 4, 5, 6]).length :=
  ⟨rfl, by decide, nofun, by decide⟩

theorem wit_ReadByteIsExchangeOfOnes :
    State.reset.phase = .idle ∧ (∀ k, State.reset.inputs.head? ≠ some (.blockReset k)) ∧
    0x2C3#10 &&& opMask = 0x200#10 :=
  ⟨rfl, nofun, by decide⟩

/-! ### Witnesses: phases -/

theorem wit_RateChangePhases :
    (nextMove (inPhase .rstSlowTx [quiet])).setRate = .ok ∧ (inPhase .rstSlowTx [quiet]).phase = .rstSlowTx ∧
    (nextMove (inPhase .rstSlowRx [quiet])).setRate = .ok ∧ (inPhase .rstSlowRx [quiet]).phase = .rstSlowRx ∧
    (nextMove (inPhase .rstFastTx [quiet])).setRate = .ok ∧ (inPhase .rstFastTx [quiet]).phase = .rstFastTx ∧
    (nextMove (inPhase .rstFastRx [quiet])).setRate = .ok ∧ (inPhase .rstFastRx [quiet]).phase = .rstFastRx := by decide

theorem wit_RejectedRateChangeAborts :
    (nextMove (inPhase .rstSlowTx [{ setRate := .fail .fast }])).setRate = .fail .fast ∧
    (inPhase .rstSlowTx [{ setRate := .fail .fast }]).phase = .rstSlowTx ∧
    (nextMove (inPhase .rstSlowRx [{ setRate := .fail .slow }])).setRate = .fail .slow ∧
    (inPhase .rstSlowRx [{ setRate := .fail .slow }]).phase = .rstSlowRx ∧
    (nextMove (inPhase .rstFastTx [{ setRate := .fail .other }])).setRate = .fail .other ∧
    (inPhase .rstFastTx [{ setRate := .fail .other }]).phase = .rstFastTx ∧
    (nextMove (inPhase .rstFastRx [{ setRate := .fail .other }])).setRate = .fail .other ∧
    (inPhase .rstFastRx [{ setRate := .fail .other }]).phase = .rstFastRx := by decide

/-- The drain: a read that delivers one byte, one that asks for a byte and finds none, a timeout and an error. -/
theorem wit_DrainPhase :
    (inPhase .rstDrain [{ arrivals := [0x5A], readSome := .bytes 1 }]).phase = .rstDrain ∧
    (nextMove (inPhase .rstDrain [{ arrivals := [0x5A], readSome := .bytes 1 }])).readSome = .bytes 1 ∧
    (takeMove (inPhase .rstDrain [{ arrivals := [0x5A], readSome := .bytes 1 }])).rxq.take (min 1 8) ≠ [] ∧
    (nextMove (inPhase .rstDrain [{ readSome := .bytes 1 }])).readSome = .bytes 1 ∧
    (takeMove (inPhase .rstDrain [{ readSome := .bytes 1 }])).rxq.take (min 1 8) = [] ∧
    (nextMove (inPhase .rstDrain [quiet])).readSome = .timeout ∧
    (nextMove (inPhase .rstDrain [{ readSome := .fail 8 }])).readSome = .fail 8 := by decide

theorem wit_PulseAndWaitPhases :
    (inPhase .rstPulse [quiet]).phase = .rstPulse ∧ (nextMove (inPhase .rstPulse [quiet])).write = .ok ∧
    (nextMove (inPhase .rstPulse [{ write := .fail 0 }])).write = .fail 0 ∧
    (nextMove (inPhase .rstPulse [{ write := .fail 1 }])).write = .fail 1 ∧
    (nextMove (inPhase .rstPulse [{ write := .waiting }])).write = .waiting ∧
    (inPhase .rstWait []).phase = .rstWait := by decide

theorem wit_SamplePhase :
    (inPhase .rstSample [{ readSome := .bytes 0 }]).phase = .rstSample ∧
    (nextMove (inPhase .rstSample [{ readSome := .bytes 0 }])).readSome = .bytes 0 ∧
    (nextMove (inPhase .rstSample [{ arrivals := [0xE0, 0x00], readSome := .bytes 2 }])).readSome = .bytes 2 ∧
    (nextMove (inPhase .rstSample [quiet])).readSome = .timeout ∧
    (nextMove (inPhase .rstSample [{ readSome := .fail 1 }])).readSome = .fail 1 := by decide

/-- `ClassifyPhase`, `EncodePhase` and `DecodePhase`. -/
theorem wit_PurePhases :
    (inPhase .rstClassify []).phase = .rstClassify ∧ (inPhase .xchEncode []).phase = .xchEncode ∧
    (inPhase .xchDecode []).phase = .xchDecode := by decide

theorem wit_TransmitPhase :
    (inPhase .xchTx [quiet]).phase = .xchTx ∧ (nextMove (inPhase .xchTx [quiet])).write = .ok ∧
    (nextMove (inPhase .xchTx [{ write := .fail 8 }])).write = .fail 8 ∧
    (nextMove (inPhase .xchTx [{ write := .waiting }])).write = .waiting := by decide

/-- The read: eight bytes, seven, a failure, an expired bound where there is one, no bound, and a timeout that the eight
bytes forestall, with a bound and without. -/
theorem wit_ReceivePhase :
    (inPhase .xchRx [{ arrivals := List.replicate 8 0x00 }]).phase = .xchRx ∧
    (List.replicate 8 (0x00 : Byte)).length = 8 ∧
    (nextMove (inPhase .xchRx [{ arrivals := List.replicate 8 0x00 }])).readExact = .arrive ∧
    8 ≤ (takeMove (inPhase .xchRx [{ arrivals := List.replicate 8 0x00 }])).rxq.length ∧
    (takeMove (inPhase .xchRx [{ arrivals := List.replicate 7 0x00 }])).rxq.length < 8 ∧
    (nextMove (inPhase .xchRx [{ readExact := .fail 0 }])).readExact = .fail 0 ∧
    (nextMove (inPhase .xchRx [{ readExact := .timeout 8 }])).readExact = .timeout 8 ∧
    (takeMove (inPhase .xchRx [{ readExact := .timeout 8 }])).rxq.length < 8 ∧
    ({ Config.owbt with slotReadTimeout := some 0 } : Cfg).slotReadTimeout = some 0 ∧
    Config.owbt.slotReadTimeout = none ∧
    8 ≤ (takeMove (inPhase .xchRx [{ arrivals := List.replicate 8 0x00, readExact := .timeout 8 }])).rxq.length := by
  decide

/-- For its first clause: a timeout is no failure. -/
theorem wit_ReceivePhase_no_failure (n : Nat) :
    (nextMove (inPhase .xchRx [{ arrivals := List.replicate 8 0x00, readExact := .timeout 8 }])).readExact ≠ .fail n :=
  ReadExactChoice.noConfusion

/-! ### Witnesses: faults, waiting, frames, reset, invariants -/

/-- `FaultTable`: one state for each row, on either side. -/
theorem wit_FaultTable :
    Status.configurationFailed ≠ .ok ∧
    (phaseStep Config.owbt (inPhase .rstFastTx [{ setRate := .fail .slow }])).responses =
      [responseWord .configurationFailed false 0x00#8] ∧
    (phaseStep Config.owbt (inPhase .xchTx [{ write := .fail 0 }])).responses =
      [responseWord .transmitFailed false 0x00#8] ∧
    (phaseStep Config.owbt (inPhase .xchRx [{ readExact := .fail 8 }])).responses =
      [responseWord .receiveFailed false 0x00#8] ∧
    (phaseStep { Config.owbt with slotReadTimeout := some 1 } (inPhase .xchRx [{ readExact := .timeout 8 }])).responses =
      [responseWord .receiveTimeout false 0x00#8] := by decide

theorem wit_NoTimeoutFaultHere : ∃ t, step (inPhase .xchRx [{ readExact := .timeout 0 }]) = .next t := ⟨_, rfl⟩

theorem wit_DrainAndSampleNeverFault :
    (inPhase .rstDrain [{ readSome := .fail 0 }]).phase = .rstDrain ∧
    (inPhase .rstSample [{ readSome := .fail 0 }]).phase = .rstSample := by decide

theorem wit_OneResponseOnReturn : (inPhase .xchDecode []).phase ≠ .idle := by decide

theorem wit_OneCallAtATime :
    outstandingCall Config.owbt (inPhase .xchRx []) ≠ none ∧
    (phaseStep Config.owbt (inPhase .xchRx [quiet])).events = (inPhase .xchRx [quiet]).events := by decide

theorem wit_StuckOnlyInThreePhases :
    callWaits Config.owbt (inPhase .xchRx [{ arrivals := List.replicate 7 0xFF }]) = true ∧
    callWaits Config.owbt (inPhase .rstPulse [{ write := .waiting }]) = true ∧
    callWaits Config.owbt (inPhase .xchTx [{ write := .waiting }]) = true ∧
    callWaits Config.owbt (inPhase .xchRx [{ arrivals := List.replicate 8 0xFF }]) = false := by decide

/-- One stale byte and one that has just arrived. -/
theorem wit_DrainHasNoBound :
    (inPhase .rstDrain [{ readSome := .bytes 1 }, { arrivals := [0xFF], readSome := .bytes 1 }]).phase = .rstDrain ∧
    (inPhase .rstDrain [{ readSome := .bytes 1 }, { arrivals := [0xFF], readSome := .bytes 1 }]).inputs =
      [({ readSome := .bytes 1 } : EnvMove), { arrivals := [0xFF], readSome := .bytes 1 }].map .move ++ [] ∧
    drained Config.owbt [0x12] [{ readSome := .bytes 1 }, { arrivals := [0xFF], readSome := .bytes 1 }] = some [] := by
  decide

/-- No call, a read that delivers, a read that times out over a byte, and a read that has not returned. -/
theorem wit_ReadsTakeTheHead :
    (outstandingCall Config.owbt (inPhase .xchEncode []) = none ∧ (inPhase .xchEncode []).phase ≠ .idle) ∧
    (phaseStep Config.owbt (inPhase .rstSample [{ arrivals := [0xE0], readSome := .bytes 1 }])).events =
      [] ++ [{ call := .rxReadSome 1 10000, outcome := .bytes [0xE0] }] ∧
    (phaseStep Config.owbt (inPhase .rstSample [{ arrivals := [0xE0] }])).events =
      [] ++ [{ call := .rxReadSome 1 10000, outcome := .timeout }] ∧
    (phaseStep Config.owbt (inPhase .xchRx [quiet])).events = (inPhase .xchRx [quiet]).events := by decide

theorem wit_WritesReachTheWire :
    outstandingCall Config.owbt (inPhase .rstPulse [quiet]) = some (.memWrite [0xF0]) ∧
    (phaseStep Config.owbt (inPhase .rstPulse [quiet])).events = [] ++ [{ call := .memWrite [0xF0], outcome := .ok }] := by
  decide

theorem wit_ResetPhasesFrame :
    (inPhase .rstSample []).phase ∈ [Phase.rstSlowTx, .rstSlowRx, .rstDrain, .rstPulse, .rstWait, .rstSample,
      .rstFastTx, .rstFastRx, .rstClassify] ∧
    ((inPhase .rstSample []).phase ≠ .rstSlowTx ∧ (inPhase .rstSample []).phase ≠ .rstFastTx) ∧
    (inPhase .rstClassify []).phase ≠ .rstSample ∧ (inPhase .rstClassify []).phase ≠ .rstDrain := by decide

theorem wit_ExchangePhasesFrame :
    (inPhase .xchTx []).phase ∈ [Phase.xchEncode, .xchTx, .xchRx, .xchDecode] ∧
    (inPhase .xchTx []).phase ≠ .xchEncode ∧ (inPhase .xchTx []).phase ≠ .xchRx := by decide

theorem wit_TransmitErrorSurfaces :
    (inPhase .rstPulse [{ write := .fail 1 }]).phase = .rstPulse ∧
    (nextMove (inPhase .rstPulse [{ write := .fail 1 }])).write = .fail 1 ∧
    (inPhase .xchTx [{ write := .fail 8 }]).phase = .xchTx ∧
    (nextMove (inPhase .xchTx [{ write := .fail 8 }])).write = .fail 8 := by decide

/-- A write that the block reset cuts, and a call that is none. -/
theorem wit_BlockResetKeepsTheOutside :
    ({ inPhase .rstPulse [] with inputs := [.blockReset 1, .move {}] } : State).inputs = .blockReset 1 :: [.move {}] ∧
    outstandingCall Config.owbt (inPhase .rstPulse []) = some (.memWrite [0xF0]) ∧
    ∀ v, outstandingCall Config.owbt (inPhase .rstDrain []) ≠ some (.memWrite v) :=
  ⟨rfl, by decide, nofun⟩

/-- R240, D25: `WRITE_READ_BYTE 0x05` cut after three of its characters; the state is that of any block reset. -/
theorem test_block_reset_cuts_write :
    afterIs (step { inPhase .xchTx [] with txbuf := encByte Config.owbt 0x05, inputs := [.blockReset 3] })
      (fun t => (t.phase, t.txStream.map SentChar.char, t.response, t.events)) (.idle, [0xFF, 0x00, 0xFF], none, []) =
      true := by decide

/-- A count beyond the write is the whole write, and nothing is sent where no write is outstanding. -/
theorem test_block_reset_counts :
    afterIs (step { inPhase .rstPulse [] with inputs := [.blockReset 2] }) (fun t => t.txStream.map SentChar.char)
      [0xF0] = true ∧
    afterIs (step { inPhase .xchRx [] with inputs := [.blockReset 2] }) State.txStream [] = true := by decide

/-- A state in the last phase of a bus reset, with everything at its reset value but the phase and the rates. -/
def classifying : State := { State.reset with phase := .rstClassify, txRate := .fast, rxRate := .fast }

theorem classifying_txbuf : ∀ b ∈ classifying.txbuf.toList, b = 0xFF ∨ b = 0x00 := by decide

/-- For `StepKeepsInvariant` and `OkResetLeavesFastRates`. -/
theorem wit_Invariant :
    Inv classifying ∧ (∀ k, classifying.inputs.head? ≠ some (.blockReset k)) ∧ classifying.phase = .rstClassify ∧
    ∃ t, step classifying = .next t := by
  refine ⟨⟨?_, ?_, ⟨?_, classifying_txbuf⟩, ⟨?_, ?_⟩, rfl, fun _ => rfl, ?_⟩, nofun, rfl, _, rfl⟩ <;>
    simp [classifying, State.reset, ratesFollowPhase, slowPhase, txbufEncodes]

theorem wit_NothingHeldBetweenCommands :
    agreeOutside State.reset { State.reset with operand := 0x5A, resp := some 0x00 } ∧ State.reset.phase = .idle :=
  ⟨rfl, rfl⟩

/-! ### Witnesses: the reference environment -/

theorem wit_ReferenceEnvironmentEchoes :
    (outstandingCall Config.owbt (inPhase .rstPulse []) = some (.memWrite [0xF0]) ∧
      ([2] : List Nat).contains ((inPhase .rstPulse []).events.length + 1) = false ∧ 0 < [(0xF0 : Byte)].length) ∧
    ([1] : List Nat).contains ((inPhase .rstPulse []).events.length + 1) = true ∧
    (outstandingCall Config.owbt (inPhase .rstDrain []) = some (.rxReadSome 8 1000) ∧ (inPhase .rstDrain []).rxq = []) ∧
    ({ inPhase .rstSample [] with rxq := [0xF0] } : State).rxq ≠ [] ∧
    outstandingCall Config.owbt (inPhase .xchRx []) = some (.memRead 8) := by decide

/-- The run of a bus reset in `ENV_REF` sends one character and takes one byte of the script. -/
theorem test_ref_script_advances :
    (refRun 10 { pulls := [0xEF, 0x01], failing := [] } (offering [0x000])).1.pulls = [0x01] ∧
    pathArrivals (refPath 10 { pulls := [0xEF, 0x01], failing := [] } (offering [0x000])) = [0xE0] := by decide

/-- In `IDLE` with nothing offered `ENV_REF` appends nothing, whatever inputs are left. -/
theorem test_ref_idle_appends_nothing :
    afterIs (refStep { pulls := [], failing := [] } (inPhase .idle [{ arrivals := [0x7C] }])).2
      (fun t => (t.phase, t.rxq)) (.idle, []) = true := by decide

/-- The path of a `WRITE_READ_BYTE 0xA5` with slots 2 and 7 pulled (S2), in an environment that echoes late. -/
def echoing : State :=
  { inPhase .idle [{ write := .waiting, arrivals := [0xFF, 0x00] }, { arrivals := [0x00] }, quiet,
      { arrivals := [0x00, 0x00, 0xFF, 0x00, 0x00] }] with offers := [0x1A5] }

/-- For `EchoedExchange`, where the block waits for its readbacks and the next step brings the last of them. -/
theorem wit_EchoedExchange_receive :
    echoing.phase = .idle ∧ echoing.rxq = [] ∧ (∀ k, .blockReset k ∉ echoing.inputs) ∧ echoing.offers = 0x1A5 :: [] ∧
    decode 0x1A5#10 = .ok (.writeReadByte 0xA5) ∧
    afterIs (Host.Core.run core 5 echoing) (fun t => (t.phase, t.responses, (nextMove t).readExact))
      (.xchRx, [], .arrive) = true ∧
    echo (path 6 echoing) = true := by
  refine ⟨rfl, rfl, fun k => by simp [echoing, inPhase], rfl, by decide, by decide, by decide⟩

/-- For `EchoedExchange`, in the decoding phase: both premises hold, and one step later the response is 0x021. -/
theorem wit_EchoedExchange_decode :
    afterIs (Host.Core.run core 6 echoing) (fun t => (t.phase, t.responses)) (.xchDecode, []) = true ∧
    echo (path 6 echoing) = true ∧ wireLaw (path 6 echoing) = true ∧
    afterIs (Host.Core.run core 7 echoing) State.response (some 0x021) = true := by
  decide

/-- A readback before its write began breaks `ECHO`, and so does a byte that no character caused. -/
theorem test_echo_refused :
    echo (path 1 (inPhase .rstDrain [{ arrivals := [0xF0] }])) = false ∧
    echo (path 1 (inPhase .rstPulse [{ arrivals := [0xF0, 0xF0] }])) = false ∧
    echo (path 1 (inPhase .rstPulse [{ arrivals := [0xF0] }])) = true ∧
    wireLaw (path 1 (inPhase .rstPulse [{ arrivals := [0xF1] }])) = false := by decide

/-- A character echoed while its write waits is owed nothing after a block reset that says it was sent. -/
theorem test_echo_of_cut_write :
    echo (path 2 { inPhase .rstPulse [] with
      inputs := [.move { arrivals := [0xF0], write := .waiting }, .blockReset 1] }) = true ∧
    echo (path 2 { inPhase .rstPulse [] with
      inputs := [.move { arrivals := [0xF0], write := .waiting }, .blockReset 0] }) = false := by decide

/-- For `ExchangeUnderReference` and, with the word of `RESET`, `BusResetUnderReference`. -/
theorem wit_UnderReference :
    (offering [encode (.writeReadByte 0xA5)]).phase = .idle ∧ (offering [encode (.writeReadByte 0xA5)]).inputs = [] ∧
    (offering [encode (.writeReadByte 0xA5)]).rxq = [] ∧
    (offering [encode (.writeReadByte 0xA5)]).offers = [encode (.writeReadByte 0xA5)] ∧
    (offering [0x0A7]).offers = [0x0A7] ∧ 0x0A7#10 &&& opMask = 0x000#10 ∧
    (∀ i : Nat, i < 8 → ([] : List Byte).getD i 0xFF = 0xFF) := by
  refine ⟨rfl, rfl, rfl, rfl, rfl, by decide, fun i _ => by simp⟩

/-- P5: one stale byte. -/
theorem wit_StaleByteShiftsResult :
    ({ offering [encode (.writeReadByte 0xA5)] with rxq := [0x00] } : State).phase = .idle ∧
    ({ offering [encode (.writeReadByte 0xA5)] with rxq := [0x00] } : State).inputs = [] ∧
    ({ offering [encode (.writeReadByte 0xA5)] with rxq := [0x00] } : State).rxq = [0x00] ∧
    ({ offering [encode (.writeReadByte 0xA5)] with rxq := [0x00] } : State).offers = [encode (.writeReadByte 0xA5)] := by
  refine ⟨rfl, rfl, rfl, rfl⟩

end Sys2Proof.Tests
end

section
/-! SUPPORT. The block's five buffers are dead between commands (10_state.md R20): a run reads a buffer only where the phase
it is in says that the command in progress has written it. Two states that agree outside the buffers and in the buffer
their phase has yet to read take the same step and agree so again. -/

namespace Sys2Proof.Machine

/-! ### Replacing the buffers -/

/-- The five buffers of the block (R21 to R24, R41). -/
structure Buffers where
  operand : Byte
  txbuf : Chars
  rxbuf : Chars
  resp : Option Byte
  drainbuf : List Byte

/-- `s` with other buffers. -/
def withBuffers (b : Buffers) (s : State) : State :=
  { s with operand := b.operand, txbuf := b.txbuf, rxbuf := b.rxbuf, resp := b.resp, drainbuf := b.drainbuf }

/-- The states that agree with `s` outside the block are `s` with any buffers. -/
theorem agreeOutside_iff {s t : State} : agreeOutside s t ↔ ∃ b, t = withBuffers b s := by
  constructor
  · exact fun h => ⟨⟨t.operand, t.txbuf, t.rxbuf, t.resp, t.drainbuf⟩, h⟩
  · rintro ⟨b, rfl⟩
    rfl

section
variable (b : Buffers) (s : State)

@[simp] theorem withBuffers_phase : (withBuffers b s).phase = s.phase := rfl
@[simp] theorem withBuffers_operand : (withBuffers b s).operand = b.operand := rfl
@[simp] theorem withBuffers_txbuf : (withBuffers b s).txbuf = b.txbuf := rfl
@[simp] theorem withBuffers_rxbuf : (withBuffers b s).rxbuf = b.rxbuf := rfl
@[simp] theorem withBuffers_resp : (withBuffers b s).resp = b.resp := rfl
@[simp] theorem withBuffers_inputs : (withBuffers b s).inputs = s.inputs := rfl

/-! ### The shared operations do not read the buffers -/

@[simp] theorem nextMove_withBuffers : nextMove (withBuffers b s) = nextMove s := rfl
@[simp] theorem fetchWord_withBuffers : fetchWord (withBuffers b s) = fetchWord s := rfl
@[simp] theorem resetDue_withBuffers : resetDue (withBuffers b s) = resetDue s := rfl
@[simp] theorem cutCount_withBuffers : cutCount (withBuffers b s) = cutCount s := rfl

@[simp] theorem takeMove_withBuffers : takeMove (withBuffers b s) = withBuffers b (takeMove s) := by
  unfold takeMove
  rw [withBuffers_inputs]
  split <;> rfl

@[simp] theorem takeOffer_withBuffers : takeOffer (withBuffers b s) = withBuffers b (takeOffer s) := rfl
@[simp] theorem dropInput_withBuffers : dropInput (withBuffers b s) = withBuffers b (dropInput s) := rfl

/-- Block reset overwrites all five. -/
@[simp] theorem blockReset_withBuffers : blockReset (withBuffers b s) = blockReset s := rfl

@[simp] theorem setRate_withBuffers (k : Cap) (r : Rate) (m : EnvMove) :
    setRate k r m (withBuffers b s) = (setRate k r m s).map id (withBuffers b) := by
  unfold setRate
  cases k <;> cases m.setRate <;> rfl

@[simp] theorem memWrite_withBuffers (v : List Byte) (m : EnvMove) :
    memWrite v m (withBuffers b s) = (memWrite v m s).map (Prod.map id (withBuffers b)) := by
  unfold memWrite
  cases m.write <;> rfl

@[simp] theorem readArrived_withBuffers (n : Nat) :
    readArrived n (withBuffers b s) = (readArrived n s).map (Prod.map id (withBuffers b)) := by
  unfold readArrived
  rw [apply_ite (Option.map _)]
  rfl

@[simp] theorem memRead_withBuffers (c : Cfg) (n : Nat) (m : EnvMove) :
    memRead c n m (withBuffers b s) = (memRead c n m s).map (Prod.map id (withBuffers b)) := by
  unfold memRead
  cases m.readExact with
  | arrive => exact readArrived_withBuffers b s n
  | fail k => rfl
  | timeout k =>
    rw [readArrived_withBuffers, apply_ite (Option.map _)]
    rfl

@[simp] theorem rxReadSome_withBuffers (len : Nat) (bound : Micros) (m : EnvMove) :
    rxReadSome len bound m (withBuffers b s) = (rxReadSome len bound m s).map id (withBuffers b) := by
  unfold rxReadSome
  cases m.readSome <;> rfl

end

/-! ### The buffer that is still to be read -/

/-- `s` and `t` agree in the buffer that the phase of `s` or a later one of its command reads before it is written again:
`OPERAND` in `P_XCH_ENCODE`, `TXBUF` in `P_XCH_TX`, `RXBUF` in `P_XCH_DECODE`, and `RESP` from the sample to
`P_RST_CLASSIFY`. `DRAINBUF` is never read, and in `IDLE` no buffer is. -/
def liveAgree (s t : State) : Prop :=
  match s.phase with
  | .xchEncode => t.operand = s.operand
  | .xchTx => t.txbuf = s.txbuf
  | .xchDecode => t.rxbuf = s.rxbuf
  | .rstFastTx | .rstFastRx | .rstClassify => t.resp = s.resp
  | _ => True

/-- `s` and `t` differ at most in buffers that are dead where `s` stands. -/
structure SameLive (s t : State) : Prop where
  outside : agreeOutside s t
  live : liveAgree s t

/-- A state in which no buffer is live is like itself with any buffers. -/
theorem sameLive_of_idle {s t : State} (ha : agreeOutside s t) (hp : s.phase = .idle) : SameLive s t :=
  ⟨ha, by simp [liveAgree, hp]⟩

variable {b : Buffers} {s : State}

theorem sameLive_raise (f : Status) : SameLive (raise f s) (raise f (withBuffers b s)) := ⟨rfl, trivial⟩

/-- Waiting keeps the phase and every buffer. -/
theorem sameLive_takeMove (h : SameLive s (withBuffers b s)) : SameLive (takeMove s) (withBuffers b (takeMove s)) :=
  ⟨rfl, by simpa [liveAgree] using h.live⟩

/-! ### The phases of a bus reset -/

theorem sameLive_rstSlowTx : SameLive (rstSlowTx s) (rstSlowTx (withBuffers b s)) := by
  simp only [rstSlowTx, nextMove_withBuffers, takeMove_withBuffers, setRate_withBuffers]
  rcases setRate_cases .tx .slow (nextMove s) (takeMove s) with ⟨-, h⟩ | ⟨_, -, h⟩ <;> rw [h]
  · exact ⟨rfl, trivial⟩
  · exact sameLive_raise _

theorem sameLive_rstSlowRx : SameLive (rstSlowRx s) (rstSlowRx (withBuffers b s)) := by
  simp only [rstSlowRx, nextMove_withBuffers, takeMove_withBuffers, setRate_withBuffers]
  rcases setRate_cases .rx .slow (nextMove s) (takeMove s) with ⟨-, h⟩ | ⟨_, -, h⟩ <;> rw [h]
  · exact ⟨rfl, trivial⟩
  · exact sameLive_raise _

theorem sameLive_rstFastTx (hr : b.resp = s.resp) : SameLive (rstFastTx s) (rstFastTx (withBuffers b s)) := by
  simp only [rstFastTx, nextMove_withBuffers, takeMove_withBuffers, setRate_withBuffers]
  rcases setRate_cases .tx .fast (nextMove s) (takeMove s) with ⟨-, h⟩ | ⟨_, -, h⟩ <;> rw [h]
  · exact ⟨rfl, hr.trans (takeMove_resp s).symm⟩
  · exact sameLive_raise _

theorem sameLive_rstFastRx (hr : b.resp = s.resp) : SameLive (rstFastRx s) (rstFastRx (withBuffers b s)) := by
  simp only [rstFastRx, nextMove_withBuffers, takeMove_withBuffers, setRate_withBuffers]
  rcases setRate_cases .rx .fast (nextMove s) (takeMove s) with ⟨-, h⟩ | ⟨_, -, h⟩ <;> rw [h]
  · exact ⟨rfl, hr.trans (takeMove_resp s).symm⟩
  · exact sameLive_raise _

theorem sameLive_rstDrain (c : Cfg) : SameLive (rstDrain c s) (rstDrain c (withBuffers b s)) := by
  simp only [rstDrain, nextMove_withBuffers, takeMove_withBuffers, rxReadSome_withBuffers]
  obtain ⟨o, t⟩ := rxReadSome c.drainBufLen c.tDrain (nextMove s) (takeMove s)
  cases o with
  | bytes bs => cases bs <;> exact ⟨rfl, trivial⟩
  | timeout => exact ⟨rfl, trivial⟩
  | fail => exact ⟨rfl, trivial⟩

theorem sameLive_rstPulse (c : Cfg) (h : SameLive s (withBuffers b s)) :
    SameLive (rstPulse c s) (rstPulse c (withBuffers b s)) := by
  simp only [rstPulse, nextMove_withBuffers, takeMove_withBuffers, memWrite_withBuffers]
  rcases memWrite_cases [c.resetChar] (nextMove s) (takeMove s) with ⟨-, hw⟩ | ⟨_, -, hw⟩ | ⟨-, hw⟩ <;> rw [hw]
  · exact ⟨rfl, trivial⟩
  · exact sameLive_raise _
  · exact sameLive_takeMove h

theorem sameLive_rstWait (c : Cfg) : SameLive (rstWait c s) (rstWait c (withBuffers b s)) := by
  rw [rstWait, rstWait, takeMove_withBuffers]
  exact ⟨rfl, trivial⟩

/-- Whatever the read returned, both states write the same value into `RESP`. -/
theorem sameLive_rstSample (c : Cfg) : SameLive (rstSample c s) (rstSample c (withBuffers b s)) := by
  simp only [rstSample, nextMove_withBuffers, takeMove_withBuffers, rxReadSome_withBuffers]
  obtain ⟨o, t⟩ := rxReadSome 1 c.tPresence (nextMove s) (takeMove s)
  cases o <;> exact ⟨rfl, rfl⟩

theorem sameLive_rstClassify (c : Cfg) (hr : b.resp = s.resp) :
    SameLive (rstClassify c s) (rstClassify c (withBuffers b s)) := by
  rw [rstClassify, rstClassify, withBuffers_resp, hr]
  exact ⟨rfl, trivial⟩

/-! ### The phases of a byte exchange -/

theorem sameLive_xchEncode (c : Cfg) (ho : b.operand = s.operand) :
    SameLive (xchEncode c s) (xchEncode c (withBuffers b s)) := by
  rw [xchEncode, xchEncode, withBuffers_operand, ho]
  exact ⟨rfl, rfl⟩

theorem sameLive_xchTx (h : SameLive s (withBuffers b s)) (ht : b.txbuf = s.txbuf) :
    SameLive (xchTx s) (xchTx (withBuffers b s)) := by
  simp only [xchTx, withBuffers_txbuf, ht, nextMove_withBuffers, takeMove_withBuffers, memWrite_withBuffers]
  rcases memWrite_cases s.txbuf.toList (nextMove s) (takeMove s) with ⟨-, hw⟩ | ⟨_, -, hw⟩ | ⟨-, hw⟩ <;> rw [hw]
  · exact ⟨rfl, trivial⟩
  · exact sameLive_raise _
  · exact sameLive_takeMove h

/-- A read that completes writes the same characters into `RXBUF` of both. -/
theorem sameLive_xchRx (c : Cfg) (h : SameLive s (withBuffers b s)) :
    SameLive (xchRx c s) (xchRx c (withBuffers b s)) := by
  simp only [xchRx, nextMove_withBuffers, takeMove_withBuffers, memRead_withBuffers]
  cases memRead c slots (nextMove s) (takeMove s) with
  | none => exact sameLive_takeMove h
  | some r =>
    obtain ⟨o, t⟩ := r
    cases o with
    | bytes bs => exact ⟨rfl, rfl⟩
    | timeout => exact sameLive_raise _
    | fail => exact sameLive_raise _

theorem sameLive_xchDecode (c : Cfg) (hr : b.rxbuf = s.rxbuf) :
    SameLive (xchDecode c s) (xchDecode c (withBuffers b s)) := by
  rw [xchDecode, xchDecode, withBuffers_rxbuf, hr]
  exact ⟨rfl, trivial⟩

/-! ### The step -/

theorem sameLive_phaseStep (c : Cfg) (h : SameLive s (withBuffers b s)) :
    SameLive (phaseStep c s) (phaseStep c (withBuffers b s)) := by
  have hl := h.live
  cases hp : s.phase <;> simp only [phaseStep, withBuffers_phase, liveAgree, hp] at hl ⊢
  case idle => exact takeMove_withBuffers b s ▸ sameLive_takeMove h
  case rstSlowTx => exact sameLive_rstSlowTx
  case rstSlowRx => exact sameLive_rstSlowRx
  case rstDrain => exact sameLive_rstDrain c
  case rstPulse => exact sameLive_rstPulse c h
  case rstWait => exact sameLive_rstWait c
  case rstSample => exact sameLive_rstSample c
  case rstFastTx => exact sameLive_rstFastTx hl
  case rstFastRx => exact sameLive_rstFastRx hl
  case rstClassify => exact sameLive_rstClassify c hl
  case xchEncode => exact sameLive_xchEncode c hl
  case xchTx => exact sameLive_xchTx h hl
  case xchRx => exact sameLive_xchRx c h
  case xchDecode => exact sameLive_xchDecode c hl

/-- The outstanding call reads no buffer but `TXBUF`, where `TXBUF` is live. -/
theorem outstandingCall_withBuffers (c : Cfg) (h : liveAgree s (withBuffers b s)) :
    outstandingCall c (withBuffers b s) = outstandingCall c s := by
  cases hp : s.phase <;> simp_all [outstandingCall, liveAgree]

theorem cutCall_withBuffers (c : Cfg) (n : Nat) (h : liveAgree s (withBuffers b s)) :
    cutCall c n (withBuffers b s) = withBuffers b (cutCall c n s) := by
  unfold cutCall
  rw [outstandingCall_withBuffers c h]
  split <;> rfl

/-- Accepting a command writes the only buffer that is live after it, `OPERAND`. -/
theorem sameLive_exec (i : Instr) (hp : s.phase = .idle) :
    ∃ s' t', exec i s = .next s' ∧ exec i (withBuffers b s) = .next t' ∧ SameLive s' t' := by
  cases i <;> simp only [exec, execReset, execWriteReadByte, execReadByte, withBuffers_phase, hp]
  case reset => exact ⟨_, _, rfl, rfl, rfl, trivial⟩
  case writeReadByte data => exact ⟨_, _, rfl, rfl, rfl, rfl⟩
  case readByte => exact ⟨_, _, rfl, rfl, rfl, rfl⟩

/-- Two states that differ only in dead buffers take the same step, to two such states or to the same refusal. -/
theorem sameLive_step {s t : State} (h : SameLive s t) :
    (∃ s' t', step s = .next s' ∧ step t = .next t' ∧ SameLive s' t') ∨
    (∃ r, step s = .refused r ∧ step t = .refused r) := by
  obtain ⟨b, rfl⟩ := agreeOutside_iff.1 h.outside
  unfold step
  rw [resetDue_withBuffers, fetchWord_withBuffers, takeOffer_withBuffers]
  split
  · have hc : blockReset (cutCall Config.owbt (cutCount s) (dropInput (withBuffers b s))) =
        blockReset (cutCall Config.owbt (cutCount s) (dropInput s)) := by
      rw [dropInput_withBuffers, cutCall_withBuffers (s := dropInput s) _ _ h.live, blockReset_withBuffers]
    exact .inl ⟨_, _, rfl, rfl, hc ▸ sameLive_of_idle rfl rfl⟩
  · split
    next => exact .inl ⟨_, _, rfl, rfl, sameLive_phaseStep _ h⟩
    next w hw =>
      split
      next i _ => exact .inl (sameLive_exec i (fetchWord_some hw).1)
      next => exact .inr ⟨_, rfl, rfl⟩

theorem sameEnd_run (n : Nat) {s t : State} (h : SameLive s t) : sameEnd (run n s) (run n t) := by
  induction n generalizing s t with
  | zero => exact h.outside
  | succ n ih =>
    rcases sameLive_step h with ⟨s', t', hs, ht, h'⟩ | ⟨r, hs, ht⟩
    · rw [run_succ_of_next hs, run_succ_of_next ht]
      exact ih h'
    · rw [run_succ_of_refused hs, run_succ_of_refused ht]
      rfl

/-- Settles O55: in `IDLE` all five buffers are dead, and every step keeps two states that differ only in dead buffers so. -/
theorem nothingHeldBetweenCommands : Obligations.NothingHeldBetweenCommands := by
  unfold Obligations.NothingHeldBetweenCommands
  intro n s t ha hp
  exact sameEnd_run n (sameLive_of_idle ha hp)

end Sys2Proof.Machine
end

section
/-! SUPPORT. The classifier and the low nibble over all 256 bytes (30_encoding.md R105): which bytes, and how many. -/

namespace Sys2Proof.Machine

/-! ### Which bytes -/

theorem classify_some_iff (c : Cfg) (b : Byte) :
    classify c (some b) = true ↔ b &&& c.presLoMask = 0 ∧ b &&& c.presHiMask ≠ c.presHiMask := by
  rw [classify]
  split_ifs with hlo hhi
  · exact iff_of_false not_false fun h => hlo h.1
  · exact iff_of_false not_false fun h => h.2 hhi
  · exact iff_of_true rfl ⟨not_not.1 hlo, hhi⟩

/-- The fifteen *Present* values (R105). -/
def presentBytes : List Byte :=
  [0x00, 0x10, 0x20, 0x30, 0x40, 0x50, 0x60, 0x70, 0x80, 0x90, 0xA0, 0xB0, 0xC0, 0xD0, 0xE0]

/-- The sixteen bytes whose low nibble is zero: the *Present* values and the reset character. -/
def lowZeroBytes : List Byte := 0xF0 :: presentBytes

theorem lowNibble_eq_zero_iff (b : Byte) : b.extractLsb' 0 4 = 0#4 ↔ b ∈ lowZeroBytes := by
  constructor
  · intro h
    have hb : b.extractLsb' 4 4 ++ b.extractLsb' 0 4 = b :=
      (BitVec.extractLsb'_append_extractLsb'_eq_extractLsb' rfl).trans BitVec.extractLsb'_eq_self
    rw [← hb, h]
    exact (by decide : ∀ hi : BitVec 4, hi ++ 0#4 ∈ lowZeroBytes) _
  · exact (by decide : ∀ b ∈ lowZeroBytes, b.extractLsb' 0 4 = 0#4) b

theorem and_loMask_eq_zero_iff (b : Byte) : b &&& 0x0F#8 = 0 ↔ b.extractLsb' 0 4 = 0#4 := by
  have hmod : b.toNat &&& 15 = b.toNat % 16 := Nat.and_two_pow_sub_one_eq_mod b.toNat 4
  simp [← BitVec.toNat_inj, hmod]

/-- A byte with a zero low nibble is its own high nibble, so of the sixteen only `0xF0` meets the second threshold. -/
theorem classify_owbt_some_iff (b : Byte) : classify Config.owbt (some b) = true ↔ b ∈ presentBytes := by
  have hhi : ∀ b ∈ lowZeroBytes, b &&& 0xF0#8 = b := by decide
  have hF0 : 0xF0#8 ∉ presentBytes := by decide
  calc classify Config.owbt (some b) = true
    _ ↔ b &&& 0x0F#8 = 0 ∧ b &&& 0xF0#8 ≠ 0xF0#8 := classify_some_iff Config.owbt b
    _ ↔ b ∈ lowZeroBytes ∧ b &&& 0xF0#8 ≠ 0xF0#8 := by rw [and_loMask_eq_zero_iff, lowNibble_eq_zero_iff]
    _ ↔ b ∈ lowZeroBytes ∧ b ≠ 0xF0#8 := and_congr_right fun h => by rw [hhi b h]
    _ ↔ b ∈ presentBytes :=
      ⟨fun ⟨h, hne⟩ => (List.mem_cons.1 h).resolve_left hne,
        fun h => ⟨List.mem_cons_of_mem _ h, fun he => hF0 (he ▸ h)⟩⟩

/-! ### How many -/

/-- A duplicate-free list of the bytes with a property counts them. -/
theorem countP_bytes {p : Byte → Bool} {l : List Byte} (hl : l.Nodup) (hp : ∀ b, p b = true ↔ b ∈ l) :
    ((List.range 256).countP fun n => p (BitVec.ofNat 8 n)) = l.length := by
  have hnodup : ((List.range 256).map (BitVec.ofNat 8)).Nodup :=
    List.nodup_range.map_on fun m hm n hn h => by
      simpa [← BitVec.toNat_inj, Nat.mod_eq_of_lt (List.mem_range.1 hm), Nat.mod_eq_of_lt (List.mem_range.1 hn)] using h
  have hall : ∀ b, b ∈ (List.range 256).map (BitVec.ofNat 8) := fun b =>
    List.mem_map.2 ⟨b.toNat, List.mem_range.2 b.isLt, by rw [BitVec.ofNat_toNat, BitVec.setWidth_eq]⟩
  have hperm : (((List.range 256).map (BitVec.ofNat 8)).filter p).Perm l :=
    (List.perm_ext_iff_of_nodup (hnodup.filter p) hl).2 fun b => by simp only [List.mem_filter, hall, hp, true_and]
  rw [← hperm.length_eq, ← List.countP_eq_length_filter, List.countP_map]
  rfl

/-- Every byte has the property or does not. -/
theorem countP_bytes_not {p : Byte → Bool} {l : List Byte} (hl : l.Nodup) (hp : ∀ b, p b = true ↔ b ∈ l) :
    ((List.range 256).countP fun n => !p (BitVec.ofNat 8 n)) = 256 - l.length := by
  have h := List.length_eq_countP_add_countP (l := List.range 256) fun n => p (BitVec.ofNat 8 n)
  rw [countP_bytes hl hp, List.length_range] at h
  simp only [Bool.not_eq_true, Bool.decide_eq_false] at h
  omega

/-- Settles O13: a byte is *Present* when its low nibble is zero and it is not `0xF0`; the counts are the lengths of lists
without duplicates and their complements in 256. -/
theorem presentValues : Obligations.PresentValues := by
  have hpresent : presentBytes.Nodup := by decide
  have hlow : lowZeroBytes.Nodup := by decide
  refine ⟨classify_owbt_some_iff, rfl, ?_, ?_, ?_⟩
  · exact countP_bytes (p := fun b => classify Config.owbt (some b)) hpresent classify_owbt_some_iff
  · exact countP_bytes_not (p := fun b => b.extractLsb' 0 4 == 0#4) hlow fun b =>
      beq_iff_eq.trans (lowNibble_eq_zero_iff b)
  · exact countP_bytes_not (p := fun b => classify Config.owbt (some b)) hpresent classify_owbt_some_iff

end Sys2Proof.Machine
end

section
/-! SUPPORT. The bit codec and the presence classifier as pure functions (40_bit_codec.md R130, R131, R132, R134): what
one slot carries, how one readback is decided, and the thresholds of this hardware as conditions on the two nibbles. -/

namespace Sys2Proof.Machine

/-! ### Encoding -/

/-- Every data bit of a slot character is the bit sent (R130). -/
theorem getLsbD_encBit_owbt (v : Bool) {i : Nat} (h : i < 8) : (encBit Config.owbt v).getLsbD i = v := by
  cases v
  case false => exact BitVec.getLsbD_zero
  case true => exact BitVec.getLsbD_allOnes.trans (decide_eq_true h)

theorem encBit_owbt_eq_zero_or_ones (v : Bool) : encBit Config.owbt v = 0x00 ∨ encBit Config.owbt v = 0xFF := by
  cases v
  case false => exact .inl rfl
  case true => exact .inr rfl

/-- Slot `i` carries bit `i` (R131). -/
theorem encByte_eq_ofFn (c : Cfg) (b : Byte) : encByte c b = Vector.ofFn fun i => encBit c (b.getLsbD i) := rfl

theorem getElem_encByte (c : Cfg) (b : Byte) (i : Nat) (h : i < 8) : (encByte c b)[i] = encBit c (b.getLsbD i) := by
  rw [getElem_congr_coll (encByte_eq_ofFn c b), Vector.getElem_ofFn]

theorem mem_encByte_toList {c : Cfg} {b x : Byte} (h : x ∈ (encByte c b).toList) : ∃ v, x = encBit c v := by
  rw [Vector.mem_toList_iff, encByte_eq_ofFn, Vector.mem_ofFn] at h
  obtain ⟨i, hi⟩ := h
  exact ⟨_, hi.symm⟩

/-- The operand can be read back from the characters: bit `i` is any data bit of slot `i`. -/
theorem getLsbD_getElem_encByte_owbt (b : Byte) (i : Nat) (h : i < 8) :
    (encByte Config.owbt b)[i].getLsbD 0 = b.getLsbD i := by
  rw [getElem_encByte, getLsbD_encBit_owbt _ (by decide)]

theorem encByte_owbt_injective : Function.Injective (encByte Config.owbt) := fun a b hab =>
  BitVec.eq_of_getLsbD_eq fun i h => by
    rw [← getLsbD_getElem_encByte_owbt a i h, ← getLsbD_getElem_encByte_owbt b i h, getElem_congr_coll hab]

/-- Settles O6: the characters are `ENC_BIT` of the operand's bits slot by slot, and a bit is read back from its
character. -/
theorem encodeByteSlots : Obligations.EncodeByteSlots := by
  refine ⟨⟨rfl, rfl⟩, fun v i h => getLsbD_encBit_owbt v h, ⟨rfl, rfl, rfl⟩, getElem_encByte,
    encByte_owbt_injective, fun b x hx => ?_⟩
  obtain ⟨v, rfl⟩ := mem_encByte_toList hx
  exact encBit_owbt_eq_zero_or_ones v

/-! ### Decoding -/

theorem decSlot_eq_true_iff (c : Cfg) (r : Byte) : decSlot c r = true ↔ r = c.nopull := beq_iff_eq

/-- Settles O7: the decision is the comparison with `NOPULL`, which here is `0xFF`. -/
theorem decodeSlotSentinel : Obligations.DecodeSlotSentinel :=
  ⟨decSlot_eq_true_iff, decSlot_eq_true_iff Config.owbt⟩

/-! ### Classification -/

theorem highNibble_append_lowNibble (b : Byte) : b.extractLsb' 4 4 ++ b.extractLsb' 0 4 = b :=
  (BitVec.extractLsb'_append_extractLsb'_eq_extractLsb' rfl).trans BitVec.extractLsb'_eq_self

/-- The second threshold keeps the high nibble and clears the low one. -/
theorem and_hiMask_eq_append (b : Byte) : b &&& 0xF0#8 = b.extractLsb' 4 4 ++ 0#4 := by
  calc b &&& 0xF0#8
    _ = (b.extractLsb' 4 4 ++ b.extractLsb' 0 4) &&& (BitVec.allOnes 4 ++ 0#4) := by
      rw [highNibble_append_lowNibble]; rfl
    _ = b.extractLsb' 4 4 ++ 0#4 := by rw [BitVec.and_append, BitVec.and_allOnes, BitVec.and_zero]

theorem and_hiMask_eq_hiMask_iff (b : Byte) : b &&& 0xF0#8 = 0xF0#8 ↔ b.extractLsb' 4 4 = 0xF#4 := by
  rw [and_hiMask_eq_append]
  exact (by decide : ∀ hi : BitVec 4, hi ++ 0#4 = 0xF0#8 ↔ hi = 0xF#4) _

/-- Both nibbles fail their test exactly above `0xF0`, the echo of the reset character. -/
theorem nibbles_fail_iff (b : Byte) :
    b.extractLsb' 0 4 ≠ 0#4 ∧ b.extractLsb' 4 4 = 0xF#4 ↔ 0xF1 ≤ b.toNat := by
  have hb := b.isLt
  have hlo : (b.extractLsb' 0 4).toNat = b.toNat % 16 := by simp
  have hhi : (b.extractLsb' 4 4).toNat = b.toNat / 16 % 16 := by simp [Nat.shiftRight_eq_div_pow]
  rw [ne_eq, ← BitVec.toNat_inj, ← BitVec.toNat_inj, hlo, hhi]
  simp only [BitVec.toNat_ofNat]
  omega

/-- Settles O12: the two tests of `CLASSIFY` are, with the masks of this hardware, a test of each nibble. -/
theorem classifyRule : Obligations.ClassifyRule := by
  refine ⟨fun _ => rfl, classify_some_iff, fun b => ?_, fun b => ?_⟩
  · exact (classify_some_iff Config.owbt b).trans
      (and_congr (and_loMask_eq_zero_iff b) (and_hiMask_eq_hiMask_iff b).not)
  · exact (and_congr (and_loMask_eq_zero_iff b).not (and_hiMask_eq_hiMask_iff b)).trans (nibbles_fail_iff b)

end Sys2Proof.Machine
end

section
/-! SUPPORT. The two phases of a byte exchange that make no capability call (42_byte_exchange.md R182, R185): which phase's
step the block takes there, and the state that step leaves. -/

namespace Sys2Proof.Machine

variable {c : Cfg} {s : State}

/-! ### `P_XCH_ENCODE` -/

theorem outstandingCall_of_xchEncode (hp : s.phase = .xchEncode) : outstandingCall c s = none := by
  rw [outstandingCall, hp]

theorem phaseStep_of_xchEncode (hp : s.phase = .xchEncode) : phaseStep c s = xchEncode c s := by
  rw [phaseStep, hp]

theorem xchEncode_eq (c : Cfg) (s : State) :
    xchEncode c s = { s with phase := .xchTx, txbuf := encByte c s.operand } := rfl

/-- Settles O34: the step is `xchEncode`, which writes `TXBUF` and the phase alone. -/
theorem encodePhase : Obligations.EncodePhase := by
  unfold Obligations.EncodePhase
  intro c s hp
  exact ⟨outstandingCall_of_xchEncode hp, (phaseStep_of_xchEncode hp).trans (xchEncode_eq c s)⟩

/-! ### `P_XCH_DECODE` -/

theorem outstandingCall_of_xchDecode (hp : s.phase = .xchDecode) : outstandingCall c s = none := by
  rw [outstandingCall, hp]

theorem phaseStep_of_xchDecode (hp : s.phase = .xchDecode) : phaseStep c s = xchDecode c s := by
  rw [phaseStep, hp]

theorem xchDecode_eq (c : Cfg) (s : State) :
    xchDecode c s = { s with
      phase := .idle
      response := some (responseWord .ok false (decByte c s.rxbuf))
      responses := s.responses ++ [responseWord .ok false (decByte c s.rxbuf)] } := rfl

/-- Settles O37: the step is `xchDecode`, which responds `OK` with the decoded byte and writes nothing else. -/
theorem decodePhase : Obligations.DecodePhase := by
  unfold Obligations.DecodePhase
  intro c s hp
  exact ⟨outstandingCall_of_xchDecode hp, (phaseStep_of_xchDecode hp).trans (xchDecode_eq c s)⟩

end Sys2Proof.Machine
end

section
/-! SUPPORT. A failed transmission as the host sees it (60_exceptions.md R202): the status field of a response word, the
number of a status, and the step of the two writing phases when the write fails. -/

namespace Sys2Proof.Machine

variable {c : Cfg} {s : State} {n : Nat}

/-! ### The status of a response word -/

/-- R94: `PRESENT` and `DATA` lie below bit 9 and do not reach into `STATUS`. -/
@[simp] theorem statusField_responseWord (st : Status) (present : Bool) (data : Byte) :
    statusField (responseWord st present data) = st.code := by
  ext i hi
  have hdata : data.getLsbD (9 + i) = false := BitVec.getLsbD_of_ge _ _ (by omega)
  have hpresent : (BitVec.ofBool present).getLsbD (9 + i - 8) = false := BitVec.getLsbD_of_ge _ _ (by omega)
  have hword : 9 + i < 12 := by omega
  simp [statusField, responseWord, hdata, hpresent, hword, BitVec.getLsbD_eq_getElem hi]

/-- R95: no two statuses share a number. -/
theorem Status.code_injective : Function.Injective Status.code := by
  intro a b
  cases a <;> cases b <;> decide

/-! ### The two phases that write -/

theorem phaseStep_of_rstPulse (hp : s.phase = .rstPulse) : phaseStep c s = rstPulse c s := by
  rw [phaseStep, hp]

theorem phaseStep_of_xchTx (hp : s.phase = .xchTx) : phaseStep c s = xchTx s := by
  rw [phaseStep, hp]

/-- R55: the failing case of `memWrite_cases`, for a move known to fail. -/
theorem memWrite_of_fail {m : EnvMove} (hm : m.write = .fail n) (v : List Byte) (s : State) :
    memWrite v m s = some (.fail, logEvent (.memWrite v) .fail (transmit (v.take n) s)) := by
  rw [memWrite, hm]

theorem phaseStep_of_write_fail (c : Cfg) (hp : s.phase = .rstPulse ∨ s.phase = .xchTx)
    (hw : (nextMove s).write = .fail n) : ∃ t, phaseStep c s = raise .transmitFailed t := by
  rcases hp with hp | hp
  · exact ⟨_, by rw [phaseStep_of_rstPulse hp, rstPulse, memWrite_of_fail hw]⟩
  · exact ⟨_, by rw [phaseStep_of_xchTx hp, xchTx, memWrite_of_fail hw]⟩

/-- Settles O49: the step raises `TransmitFailed`, and the status field of the response gives back the fault it was
made from. -/
theorem transmitErrorSurfaces : Obligations.TransmitErrorSurfaces := by
  unfold Obligations.TransmitErrorSurfaces
  intro c s n hp hw
  obtain ⟨t, ht⟩ := phaseStep_of_write_fail c hp hw
  have hstatus := statusField_responseWord .transmitFailed false 0x00#8
  rw [ht]
  exact ⟨raise_phase t _, _, raise_response t _, hstatus,
    fun st hst => Status.code_injective (hst.symm.trans hstatus)⟩

end Sys2Proof.Machine
end

section
/-! SUPPORT. The command word (30_encoding.md R91 to R93, R96) as `OP` followed by `DATA`: the opcode table's match and
mask read `OP` alone, and the decoder is decided by it. -/

namespace Sys2Proof

/-! ### The two fields of a word -/

theorem op_append_data (w : CommandWord) : CommandWord.op w ++ CommandWord.data w = w :=
  (BitVec.extractLsb'_append_extractLsb'_eq_extractLsb' rfl).trans BitVec.extractLsb'_eq_self

@[simp] theorem op_append (o : BitVec 2) (d : Byte) : CommandWord.op (o ++ d) = o :=
  BitVec.extractLsb'_append_eq_left

@[simp] theorem data_append (o : BitVec 2) (d : Byte) : CommandWord.data (o ++ d) = d :=
  BitVec.extractLsb'_append_eq_right

/-- The canonical word has the command's opcode and its `DATA` field (R93). -/
theorem encode_eq_append (i : Instr) : encode i = i.op ++ i.dataField := by
  rw [encode, BitVec.append_def, BitVec.shiftLeftZeroExtend_eq, BitVec.setWidth'_eq]

/-! ### Match and mask -/

theorem matchBits_eq_append (i : Instr) : i.matchBits = i.op ++ 0#8 := by
  cases i with
  | reset => decide
  | writeReadByte d => exact (by decide : 0x100#10 = 0b01#2 ++ 0#8)
  | readByte => decide

/-- The mask keeps `OP` and clears `DATA` (R92). -/
theorem and_opMask_eq_append (w : CommandWord) : w &&& opMask = CommandWord.op w ++ 0#8 := by
  have hmask : opMask = BitVec.allOnes 2 ++ 0#8 := by decide
  calc w &&& opMask
    _ = (CommandWord.op w ++ CommandWord.data w) &&& (BitVec.allOnes 2 ++ 0#8) := by rw [op_append_data, hmask]
    _ = CommandWord.op w ++ 0#8 := by rw [BitVec.and_append, BitVec.and_allOnes, BitVec.and_zero]

theorem and_opMask_eq_append_iff (w : CommandWord) (o : BitVec 2) :
    w &&& opMask = o ++ 0#8 ↔ CommandWord.op w = o := by
  rw [and_opMask_eq_append]
  exact ⟨fun h => by simpa using congrArg CommandWord.op h, fun h => by rw [h]⟩

/-! ### The decoder -/

/-- A word decodes to a command exactly where `OP` is the command's and `DATA` is the operand, where it has one. -/
theorem decode_eq_ok_iff (w : CommandWord) (i : Instr) :
    decode w = .ok i ↔ CommandWord.op w = i.op ∧ ∀ d, i = .writeReadByte d → CommandWord.data w = d := by
  unfold decode
  cases i <;> split_ifs <;> simp_all [Instr.op]

/-- `OP` is `0b11` exactly on the reserved words (R96). -/
theorem decode_eq_reserved_iff (w : CommandWord) : decode w = .error .reservedOp ↔ CommandWord.op w = 0b11#2 := by
  have hop : ∀ o : BitVec 2, o ≠ 0b00#2 → o ≠ 0b01#2 → o ≠ 0b10#2 → o = 0b11#2 := by decide
  unfold decode
  split_ifs with h0 h1 h2
  · simp [h0]
  · simp [h1]
  · simp [h2]
  · simp [hop _ h0 h1 h2]

theorem decode_encode (i : Instr) : decode (encode i) = .ok i := by
  rw [encode_eq_append, decode_eq_ok_iff, op_append, data_append]
  exact ⟨rfl, by rintro d rfl; rfl⟩

/-- The canonical word is the only one of an exchange: it has no ignored bits. -/
theorem decode_eq_writeReadByte_iff (w : CommandWord) (d : Byte) :
    decode w = .ok (.writeReadByte d) ↔ w = encode (.writeReadByte d) := by
  refine ⟨fun h => ?_, fun h => h ▸ decode_encode _⟩
  obtain ⟨hop, hdata⟩ := (decode_eq_ok_iff w _).1 h
  rw [← op_append_data w, hop, hdata d rfl, encode_eq_append]
  rfl

/-- Where `DATA` is ignored, the match bits under the mask decide the command. -/
theorem decode_of_and_opMask {w : CommandWord} {i : Instr} (hi : ∀ d, i ≠ .writeReadByte d)
    (h : w &&& opMask = i.matchBits) : decode w = .ok i := by
  rw [matchBits_eq_append, and_opMask_eq_append_iff] at h
  exact (decode_eq_ok_iff w i).2 ⟨h, fun d hd => absurd hd (hi d)⟩

/-- Settles O2: `OP`, which the mask keeps, decides the command, and `DATA` its operand. -/
theorem decodeEncodeAgree : Obligations.DecodeEncodeAgree := by
  refine ⟨fun i _ => decode_encode i, fun w i h => ?_, fun w h => ?_, decode_eq_writeReadByte_iff, fun w h => ?_⟩
  · rw [matchBits_eq_append, and_opMask_eq_append_iff]
    exact ((decode_eq_ok_iff w i).1 h).1
  · exact decode_of_and_opMask (i := .reset) nofun h
  · exact decode_of_and_opMask (i := .readByte) nofun h

/-- Settles O1: the eight words, decoded. -/
theorem commandWordsDecode : Obligations.CommandWordsDecode := by
  unfold Obligations.CommandWordsDecode
  decide

end Sys2Proof
end

section
/-! SUPPORT. Decoding eight readbacks (40_bit_codec.md R133, R136 to R138): bit `i` is the decision of slot `i`, so what
holds of a slot holds of the byte bit by bit. -/

namespace Sys2Proof.Machine

/-! ### One slot -/

/-- Slot `j` contributes to bit `j` alone. -/
theorem getLsbD_slotBit (c : Cfg) (r : Byte) (j : Nat) {i : Nat} (hi : i < 8) :
    (slotBit c r j).getLsbD i = (decide (i = j) && decSlot c r) := by
  have hge : i < j ↔ ¬ j ≤ i := Nat.not_le.symm
  have hsub : j ≤ i → (i - j = 0 ↔ i = j) := fun h => ⟨fun _ => by omega, fun _ => by omega⟩
  by_cases hj : j ≤ i
  · simp [slotBit, hi, hge, hj, hsub hj, BitVec.getLsbD_ofBool]
  · simp [slotBit, hge, hj, show i ≠ j by omega]

theorem getLsbD_decByte (c : Cfg) (rx : Chars) (i : Nat) (h : i < 8) :
    (decByte c rx).getLsbD i = decSlot c rx[i] := by
  simp only [decByte, BitVec.getLsbD_or, getLsbD_slotBit c _ _ h]
  interval_cases i <;> simp

theorem decSlot_eq_false_iff (c : Cfg) (r : Byte) : decSlot c r = false ↔ r ≠ c.nopull := beq_eq_false_iff_ne

/-- An encoded bit decodes to itself where the two slot characters are told apart by the sentinel. -/
theorem decSlot_encBit {c : Cfg} (h1 : c.slot1Char = c.nopull) (h0 : c.slot0Char ≠ c.nopull) (v : Bool) :
    decSlot c (encBit c v) = v := by
  cases v with
  | true => exact (decSlot_eq_true_iff c _).2 h1
  | false => exact (decSlot_eq_false_iff c _).2 h0

theorem decByte_encByte {c : Cfg} (h1 : c.slot1Char = c.nopull) (h0 : c.slot0Char ≠ c.nopull) (b : Byte) :
    decByte c (encByte c b) = b :=
  BitVec.eq_of_getLsbD_eq fun i h => by rw [getLsbD_decByte c _ i h, getElem_encByte, decSlot_encBit h1 h0]

theorem decByte_encByte_owbt (b : Byte) : decByte Config.owbt (encByte Config.owbt b) = b :=
  decByte_encByte rfl (by decide) b

/-- Settles O9: bit by bit, by the round trip of one slot. -/
theorem codecRoundTrip : Obligations.CodecRoundTrip := fun _ h1 h0 b => decByte_encByte h1 h0 b

/-! ### Eight slots -/

/-- Settles O8: the corner cases are the first clause at every bit, and a byte is the decoding of its own encoding. -/
theorem decodeByteBits : Obligations.DecodeByteBits := by
  refine ⟨getLsbD_decByte, fun rx hrx => ?_, fun rx hrx => ?_, fun b => ⟨_, decByte_encByte_owbt b⟩⟩
  · refine BitVec.eq_of_getLsbD_eq (y := BitVec.allOnes 8) fun i h => ?_
    rw [getLsbD_decByte _ _ i h, BitVec.getLsbD_allOnes, decide_eq_true h, decSlot_eq_true_iff]
    exact hrx _ (by simp)
  · refine BitVec.eq_of_getLsbD_eq (y := 0#8) fun i h => ?_
    rw [getLsbD_decByte _ _ i h, BitVec.getLsbD_zero, decSlot_eq_false_iff]
    exact hrx _ (by simp)

/-- What a device leaves of one character: a logical 1 that is not pulled, and nothing else, reads as 1. -/
theorem decSlot_encBit_and (v : Bool) (m : Byte) :
    decSlot Config.owbt (encBit Config.owbt v &&& m) = (v && m == 0xFF) := by
  cases v with
  | true => exact congrArg (decSlot Config.owbt) BitVec.allOnes_and
  | false => exact congrArg (decSlot Config.owbt) BitVec.zero_and

/-- Settles O10: slot by slot, by what a device leaves of one character. -/
theorem pulledSlotsClearBits : Obligations.PulledSlotsClearBits := by
  intro b m rx hrx i h
  rw [getLsbD_decByte _ _ i h, hrx i h, getElem_encByte, decSlot_encBit_and]

/-- Under the wire law a slot in which 0 was sent reads as 0. -/
theorem decSlot_of_wireAnd {v : Bool} {r : Byte} (h : wireAnd (encBit Config.owbt v) r = true) :
    decSlot Config.owbt r = (v && r == 0xFF) := by
  cases v with
  | true => rfl
  | false =>
    have hr : r &&& BitVec.allOnes 8 = 0 := beq_iff_eq.1 h
    rw [BitVec.and_allOnes] at hr
    rw [hr]
    rfl

/-- Settles O11: a bit of the result that was not sent contradicts the wire law of its slot; where a device drives 1 into
the slots of a 0x00, the result is 0xFF. -/
theorem wireLawBoundsResult : Obligations.WireLawBoundsResult := by
  refine ⟨fun b rx hrx => BitVec.eq_of_getLsbD_eq (y := 0#8) fun i h => ?_, 0x00, Vector.replicate 8 0xFF, by decide⟩
  have hi := hrx i h
  rw [getElem_encByte] at hi
  rw [BitVec.getLsbD_and, getLsbD_decByte _ _ i h, decSlot_of_wireAnd hi, BitVec.getLsbD_not, BitVec.getLsbD_zero]
  cases b.getLsbD i <;> simp

end Sys2Proof.Machine
end

section
/-! SUPPORT. The words and characters that carry a command's result and a script line's command: the fields of a response
word (30_encoding.md R94, R95, R97), the word of a script line (R108), and the reset character on the wire (R98, R104). -/

namespace Sys2Proof.Machine

/-! ### Response words -/

/-- R94: `STATUS` lies above bit 8, and `DATA` below it. -/
@[simp] theorem presentField_responseWord (st : Status) (present : Bool) (data : Byte) :
    presentField (responseWord st present data) = present := by
  simp [presentField, responseWord]

@[simp] theorem dataField_responseWord (st : Status) (present : Bool) (data : Byte) :
    dataField (responseWord st present data) = data := by
  ext i hi
  have h8 : i < 8 := hi
  have h9 : i < 9 := by omega
  have h12 : i < 12 := by omega
  simp [dataField, responseWord, h8, h9, h12]

theorem Status.code_le_four (st : Status) : st.code.toNat ≤ 4 := by cases st <;> decide

/-- Settles O3: each field is read back from its own bits, and no two statuses share a number. -/
theorem responseFieldsReadBack : Obligations.ResponseFieldsReadBack :=
  ⟨fun st p d => ⟨statusField_responseWord st p d, presentField_responseWord st p d, dataField_responseWord st p d⟩,
    fun _ _ h => Status.code_injective h, Status.code_le_four⟩

/-- R97: the response of a fault carries no data, and the one of an `OK` any. -/
theorem legalResponse_ok (present : Bool) (data : Byte) : legalResponse (responseWord .ok present data) = true := by
  simp [legalResponse, Status.code]

theorem legalResponse_fault (f : Status) : legalResponse (responseWord f false 0x00#8) = true := by
  simp [legalResponse, Status.code_le_four]

theorem responseWord_inj {st st' : Status} {p p' : Bool} {d d' : Byte}
    (h : responseWord st p d = responseWord st' p' d') : st = st' :=
  Status.code_injective (by simpa using congrArg statusField h)

/-! ### Script lines -/

/-- The canonical word of an exchange, as the sum that the table writes (R93). -/
theorem encode_writeReadByte_ofNat {n : Nat} (h : n < 256) :
    encode (.writeReadByte (BitVec.ofNat 8 n)) = 0x100#10 + BitVec.ofNat 10 n := by
  have hor : (1 % 2 ^ 2) <<< 8 ||| n = 256 + n := (Nat.shiftLeft_add_eq_or_of_lt h 1).symm
  apply BitVec.eq_of_toNat_eq
  rw [encode_eq_append, BitVec.toNat_append]
  simp only [Instr.op, Instr.dataField, BitVec.toNat_add, BitVec.toNat_ofNat, Nat.mod_eq_of_lt h, hor]
  omega

theorem instr_writeReadByte {n : Nat} (h : n < 256) :
    ScriptLine.instr (.writeReadByte n) = some (.writeReadByte (BitVec.ofNat 8 n)) := if_pos h

/-- Settles O4: each line's word is the canonical one of its command, which decodes to it. -/
theorem scriptLinesAssemble : Obligations.ScriptLinesAssemble := by
  refine ⟨⟨rfl, by decide, by decide⟩, ⟨rfl, by decide, by decide⟩, fun n h => ?_, fun n h => ?_⟩
  · refine ⟨instr_writeReadByte h, ?_, ?_⟩
    · rw [assemble, instr_writeReadByte h, Option.map_some, encode_writeReadByte_ofNat h]
    · rw [← encode_writeReadByte_ofNat h, decode_encode]
  · have hnone : ScriptLine.instr (.writeReadByte n) = none := if_neg (Nat.not_lt.2 h)
    exact ⟨hnone, by rw [assemble, hnone, Option.map_none]⟩

/-! ### Characters on the wire -/

/-- Between its start and stop bit a character is its byte's bits in order (R98). -/
theorem lineLevels_owbt_eq (b : Byte) :
    lineLevels Config.owbt.frame b = [false] ++ List.ofFn (fun i : Fin 8 => b.getLsbD i) ++ [true] := rfl

theorem lineLevels_owbt_injective : Function.Injective (lineLevels Config.owbt.frame) := by
  intro a b hab
  rw [lineLevels_owbt_eq, lineLevels_owbt_eq, List.append_left_inj, List.append_right_inj] at hab
  exact BitVec.eq_of_getLsbD_eq fun i h => congrFun (List.ofFn_injective hab) ⟨i, h⟩

/-- Settles O14: the character of `0xF0` is the pulse, and no two bytes have one character. -/
theorem resetCharacterPulse : Obligations.ResetCharacterPulse := by
  have hpulse : lineLevels Config.owbt.frame Config.owbt.resetChar =
      List.replicate 5 false ++ List.replicate 5 true := by decide
  refine ⟨fun b => ?_, by decide, by decide⟩
  rw [← hpulse]
  exact lineLevels_owbt_injective.eq_iff

end Sys2Proof.Machine
end

section
/-! SUPPORT. Everything the step of a phase can do, said once for all fourteen: the four rate changes are one case that
succeeds and one that fails, and so are the two writes. -/

namespace Sys2Proof.Machine

/-! ### What a phase asks for -/

/-- The phase `q` sets the rate of `k` to `r`, and `next` follows it (R152, R153, R158, R159). -/
inductive RatePhase (q : Phase) : Cap → Rate → Phase → Prop
  | slowTx (hp : q = .rstSlowTx) : RatePhase q .tx .slow .rstSlowRx
  | slowRx (hp : q = .rstSlowRx) : RatePhase q .rx .slow .rstDrain
  | fastTx (hp : q = .rstFastTx) : RatePhase q .tx .fast .rstFastRx
  | fastRx (hp : q = .rstFastRx) : RatePhase q .rx .fast .rstClassify

/-- The phase of `s` writes the characters `v`, and `next` follows it (R155, R183). -/
inductive WritePhase (c : Cfg) (s : State) : List Byte → Phase → Prop
  | pulse (hp : s.phase = .rstPulse) : WritePhase c s [c.resetChar] .rstWait
  | exchange (hp : s.phase = .xchTx) : WritePhase c s s.txbuf.toList .xchRx

/-- An `RxReadSome` of at most `len` bytes from the queue `q` can return `o` and remove the first `k` bytes (R58, D29). -/
inductive SomeRead (len : Nat) (q : List Byte) : CallOutcome → Nat → Prop
  | bytes (k : Nat) (hk : k ≤ len) : SomeRead len q (.bytes (q.take k)) k
  | timeout : SomeRead len q .timeout 0
  | fail (k : Nat) (hk : k ≤ len) : SomeRead len q .fail k

/-- What the presence read puts into `RESP` (R157). -/
def sampledByte : CallOutcome → Option Byte
  | .bytes bs => bs.head?
  | _ => none

/-! ### What a phase does -/

/-- The state that the step of the phase of `s` leaves: with the phase, what the environment chose there. -/
inductive PhaseOutcome (c : Cfg) (s : State) : State → Prop
  | idle (hp : s.phase = .idle) : PhaseOutcome c s (takeMove s)
  | rateSet {k r next} (hp : RatePhase s.phase k r next) (hm : (nextMove s).setRate = .ok) :
      PhaseOutcome c s (goto next (logEvent (.setRate k r) .ok (withRate k r (takeMove s))))
  | rateRejected {k r next left} (hp : RatePhase s.phase k r next) (hm : (nextMove s).setRate = .fail left) :
      PhaseOutcome c s (raise .configurationFailed (logEvent (.setRate k r) .fail (withRate k left (takeMove s))))
  | written {v next} (hp : WritePhase c s v next) (hm : (nextMove s).write = .ok) :
      PhaseOutcome c s (goto next (logEvent (.memWrite v) .ok (transmit v (takeMove s))))
  | writeFailed {v next n} (hp : WritePhase c s v next) (hm : (nextMove s).write = .fail n) :
      PhaseOutcome c s (raise .transmitFailed (logEvent (.memWrite v) .fail (transmit (v.take n) (takeMove s))))
  | writeWaits {v next} (hp : WritePhase c s v next) (hm : (nextMove s).write = .waiting) :
      PhaseOutcome c s (takeMove s)
  | drainLoops {bs k} (hp : s.phase = .rstDrain) (hr : SomeRead c.drainBufLen (takeMove s).rxq (.bytes bs) k)
      (hne : bs ≠ []) :
      PhaseOutcome c s (goto .rstDrain (fillDrainbuf bs
        (logEvent (.rxReadSome c.drainBufLen c.tDrain) (.bytes bs) (dropRx k (takeMove s)))))
  | drainEnds {o k} (hp : s.phase = .rstDrain) (hr : SomeRead c.drainBufLen (takeMove s).rxq o k)
      (hnil : ∀ bs, o = .bytes bs → bs = []) :
      PhaseOutcome c s (goto .rstPulse
        (logEvent (.rxReadSome c.drainBufLen c.tDrain) o (dropRx k (takeMove s))))
  | waited (hp : s.phase = .rstWait) : PhaseOutcome c s (goto .rstSample (wait c.tResetWait (takeMove s)))
  | sampled {o k} (hp : s.phase = .rstSample) (hr : SomeRead 1 (takeMove s).rxq o k) :
      PhaseOutcome c s (goto .rstFastTx (setResp (sampledByte o)
        (logEvent (.rxReadSome 1 c.tPresence) o (dropRx k (takeMove s)))))
  | classified (hp : s.phase = .rstClassify) : PhaseOutcome c s (respond .ok (classify c s.resp) 0x00#8 s)
  | encoded (hp : s.phase = .xchEncode) : PhaseOutcome c s (goto .xchTx (setTxbuf (encByte c s.operand) s))
  | received (hp : s.phase = .xchRx) (hl : slots ≤ (takeMove s).rxq.length)
      (hf : ∀ n, (nextMove s).readExact ≠ .fail n) :
      PhaseOutcome c s (goto .xchDecode (setRxbuf (charsOf ((takeMove s).rxq.take slots))
        (logEvent (.memRead slots) (.bytes ((takeMove s).rxq.take slots)) (dropRx slots (takeMove s)))))
  | receiveFailed {n} (hp : s.phase = .xchRx) (hm : (nextMove s).readExact = .fail n) :
      PhaseOutcome c s (raise .receiveFailed
        (logEvent (.memRead slots) .fail (dropRx (min n slots) (takeMove s))))
  | receiveTimedOut {n} (hp : s.phase = .xchRx) (hm : (nextMove s).readExact = .timeout n)
      (hc : c.slotReadTimeout ≠ none) (hl : (takeMove s).rxq.length < slots) :
      PhaseOutcome c s (raise .receiveTimeout
        (logEvent (.memRead slots) .timeout (dropRx (min n slots) (takeMove s))))
  | receiveWaits (hp : s.phase = .xchRx) (hl : (takeMove s).rxq.length < slots)
      (hf : ∀ n, (nextMove s).readExact ≠ .fail n)
      (ht : c.slotReadTimeout ≠ none → ∀ n, (nextMove s).readExact ≠ .timeout n) :
      PhaseOutcome c s (takeMove s)
  | decoded (hp : s.phase = .xchDecode) : PhaseOutcome c s (respond .ok false (decByte c s.rxbuf) s)

theorem rstDrain_outcome {c : Cfg} {s : State} (hp : s.phase = .rstDrain) : PhaseOutcome c s (rstDrain c s) := by
  rcases rstDrain_cases c s with ⟨n, bs, -, rfl, hne, h⟩ | ⟨n, -, hnil, h⟩ | ⟨-, h⟩ | ⟨n, -, h⟩ <;> rw [h]
  · exact .drainLoops hp (.bytes _ (Nat.min_le_right ..)) hne
  · exact .drainEnds hp (hnil ▸ .bytes _ (Nat.min_le_right ..)) (by simp)
  · exact .drainEnds hp .timeout nofun
  · exact .drainEnds hp (.fail _ (Nat.min_le_right ..)) nofun

theorem rstSample_outcome {c : Cfg} {s : State} (hp : s.phase = .rstSample) : PhaseOutcome c s (rstSample c s) := by
  rcases rstSample_cases c s with ⟨n, bs, -, rfl, h⟩ | ⟨-, h⟩ | ⟨n, -, h⟩ <;> rw [h]
  · exact .sampled hp (.bytes _ (Nat.min_le_right ..))
  · exact .sampled hp .timeout
  · exact .sampled hp (.fail _ (Nat.min_le_right ..))

theorem xchRx_outcome {c : Cfg} {s : State} (hp : s.phase = .xchRx) : PhaseOutcome c s (xchRx c s) := by
  rcases xchRx_cases c s with ⟨hl, h, hf⟩ | ⟨n, hm, h⟩ | ⟨n, hm, hc, hl, h⟩ | ⟨hl, h, hf, ht⟩ <;> rw [h]
  · exact .received hp hl hf
  · exact .receiveFailed hp hm
  · exact .receiveTimedOut hp hm hc hl
  · exact .receiveWaits hp hl hf ht

/-- Everything the step of a phase can do. -/
theorem phaseStep_outcome (c : Cfg) (s : State) : PhaseOutcome c s (phaseStep c s) := by
  cases hp : s.phase <;> simp only [phaseStep, hp]
  case idle => exact .idle hp
  case rstSlowTx =>
    rcases rstSlowTx_cases s with ⟨hm, h⟩ | ⟨left, hm, h⟩ <;> rw [h]
    · exact .rateSet (.slowTx hp) hm
    · exact .rateRejected (.slowTx hp) hm
  case rstSlowRx =>
    rcases rstSlowRx_cases s with ⟨hm, h⟩ | ⟨left, hm, h⟩ <;> rw [h]
    · exact .rateSet (.slowRx hp) hm
    · exact .rateRejected (.slowRx hp) hm
  case rstDrain => exact rstDrain_outcome hp
  case rstPulse =>
    rcases rstPulse_cases c s with ⟨hm, h⟩ | ⟨n, hm, h⟩ | ⟨hm, h⟩ <;> rw [h]
    · exact .written (.pulse hp) hm
    · exact .writeFailed (.pulse hp) hm
    · exact .writeWaits (.pulse hp) hm
  case rstWait => exact .waited hp
  case rstSample => exact rstSample_outcome hp
  case rstFastTx =>
    rcases rstFastTx_cases s with ⟨hm, h⟩ | ⟨left, hm, h⟩ <;> rw [h]
    · exact .rateSet (.fastTx hp) hm
    · exact .rateRejected (.fastTx hp) hm
  case rstFastRx =>
    rcases rstFastRx_cases s with ⟨hm, h⟩ | ⟨left, hm, h⟩ <;> rw [h]
    · exact .rateSet (.fastRx hp) hm
    · exact .rateRejected (.fastRx hp) hm
  case rstClassify => exact .classified hp
  case xchEncode => exact .encoded hp
  case xchTx =>
    rcases xchTx_cases s with ⟨hm, h⟩ | ⟨n, hm, h⟩ | ⟨hm, h⟩ <;> rw [h]
    · exact .written (.exchange hp) hm
    · exact .writeFailed (.exchange hp) hm
    · exact .writeWaits (.exchange hp) hm
  case xchRx => exact xchRx_outcome hp
  case xchDecode => exact .decoded hp

end Sys2Proof.Machine
end

section
/-! SUPPORT. The rule of each phase: the whole state its step leaves, for each way the outstanding call can go
(41_reset_sequencer.md section 2, 42_byte_exchange.md section 1). -/

namespace Sys2Proof.Machine

variable {c : Cfg} {s : State} {n : Nat}

/-! ### The phases that change a rate -/

theorem phaseStep_of_rate_ok {k : Cap} {r : Rate} {next : Phase} (hp : RatePhase s.phase k r next)
    (hm : (nextMove s).setRate = .ok) :
    phaseStep c s = goto next (logEvent (.setRate k r) .ok (withRate k r (takeMove s))) := by
  cases hp with
  | slowTx hp => simp only [phaseStep, hp, rstSlowTx, setRate, hm]
  | slowRx hp => simp only [phaseStep, hp, rstSlowRx, setRate, hm]
  | fastTx hp => simp only [phaseStep, hp, rstFastTx, setRate, hm]
  | fastRx hp => simp only [phaseStep, hp, rstFastRx, setRate, hm]

theorem phaseStep_of_rate_fail {k : Cap} {r left : Rate} {next : Phase} (hp : RatePhase s.phase k r next)
    (hm : (nextMove s).setRate = .fail left) :
    phaseStep c s =
      raise .configurationFailed (logEvent (.setRate k r) .fail (withRate k left (takeMove s))) := by
  cases hp with
  | slowTx hp => simp only [phaseStep, hp, rstSlowTx, setRate, hm]
  | slowRx hp => simp only [phaseStep, hp, rstSlowRx, setRate, hm]
  | fastTx hp => simp only [phaseStep, hp, rstFastTx, setRate, hm]
  | fastRx hp => simp only [phaseStep, hp, rstFastRx, setRate, hm]

/-- Settles O28: the successful case, written out for each of the four phases. -/
theorem rateChangePhases : Obligations.RateChangePhases := by
  intro c s hm
  rw [← takeMove_events s]
  exact ⟨fun hp => phaseStep_of_rate_ok (.slowTx hp) hm, fun hp => phaseStep_of_rate_ok (.slowRx hp) hm,
    fun hp => phaseStep_of_rate_ok (.fastTx hp) hm, fun hp => phaseStep_of_rate_ok (.fastRx hp) hm⟩

/-- Settles O29: the failing case, written out for each of the four phases; the response word is 0x200. -/
theorem rejectedRateChangeAborts : Obligations.RejectedRateChangeAborts := by
  intro c s left hm
  rw [← takeMove_events s, ← takeMove_responses s]
  exact ⟨fun hp => phaseStep_of_rate_fail (.slowTx hp) hm, fun hp => phaseStep_of_rate_fail (.slowRx hp) hm,
    fun hp => phaseStep_of_rate_fail (.fastTx hp) hm, fun hp => phaseStep_of_rate_fail (.fastRx hp) hm⟩

/-! ### The phases that write -/

theorem phaseStep_of_write_ok {v : List Byte} {next : Phase} (hp : WritePhase c s v next)
    (hm : (nextMove s).write = .ok) :
    phaseStep c s = goto next (logEvent (.memWrite v) .ok (transmit v (takeMove s))) := by
  cases hp with
  | pulse hp => simp only [phaseStep_of_rstPulse hp, rstPulse, memWrite, hm]
  | exchange hp => simp only [phaseStep_of_xchTx hp, xchTx, memWrite, hm]

theorem phaseStep_of_writePhase_fail {v : List Byte} {next : Phase} (hp : WritePhase c s v next)
    (hm : (nextMove s).write = .fail n) :
    phaseStep c s =
      raise .transmitFailed (logEvent (.memWrite v) .fail (transmit (v.take n) (takeMove s))) := by
  cases hp with
  | pulse hp => simp only [phaseStep_of_rstPulse hp, rstPulse, memWrite, hm]
  | exchange hp => simp only [phaseStep_of_xchTx hp, xchTx, memWrite, hm]

theorem phaseStep_of_write_waiting {v : List Byte} {next : Phase} (hp : WritePhase c s v next)
    (hm : (nextMove s).write = .waiting) : phaseStep c s = takeMove s := by
  cases hp with
  | pulse hp => simp only [phaseStep_of_rstPulse hp, rstPulse, memWrite, hm]
  | exchange hp => simp only [phaseStep_of_xchTx hp, xchTx, memWrite, hm]

theorem phaseStep_of_rstWait (hp : s.phase = .rstWait) : phaseStep c s = rstWait c s := by
  rw [phaseStep, hp]

/-- Settles O31: the three ways of a write of one character, of which a failed one has sent none or one. -/
theorem pulseAndWaitPhases : Obligations.PulseAndWaitPhases := by
  intro c s
  rw [← takeMove_events s, ← takeMove_responses s, ← takeMove_txStream s, ← takeMove_txRate s]
  refine ⟨fun hp hm => phaseStep_of_write_ok (.pulse hp) hm, fun n hp hm => ?_,
    fun hp hm => phaseStep_of_write_waiting (.pulse hp) hm, fun hp => phaseStep_of_rstWait hp⟩
  rw [phaseStep_of_writePhase_fail (.pulse hp) hm]
  cases n with
  | zero => rw [List.take_zero, if_pos rfl, ← List.append_nil (takeMove s).txStream]; rfl
  | succ n => rw [if_neg n.succ_ne_zero, List.take_succ_cons, List.take_nil]; rfl

/-- Settles O35: the three ways of the write of `TXBUF`. -/
theorem transmitPhase : Obligations.TransmitPhase := by
  intro c s hp
  rw [← takeMove_events s, ← takeMove_responses s, ← takeMove_txStream s, ← takeMove_txRate s]
  exact ⟨phaseStep_of_write_ok (.exchange hp), fun _ => phaseStep_of_writePhase_fail (.exchange hp),
    phaseStep_of_write_waiting (.exchange hp)⟩

/-! ### The phases that read what is there -/

theorem phaseStep_of_rstDrain (hp : s.phase = .rstDrain) : phaseStep c s = rstDrain c s := by
  rw [phaseStep, hp]

theorem phaseStep_of_rstSample (hp : s.phase = .rstSample) : phaseStep c s = rstSample c s := by
  rw [phaseStep, hp]

/-- A read that delivers nothing by its count leaves the queue as it is. -/
theorem dropRx_of_take_eq_nil (h : s.rxq.take n = []) : dropRx n s = s := by
  have hdrop : s.rxq.drop n = s.rxq := by simpa [h] using List.take_append_drop n s.rxq
  rw [dropRx, hdrop]

theorem rxReadSome_of_bytes {m : EnvMove} (hm : m.readSome = .bytes n) (len : Nat) (bound : Micros) (s : State) :
    rxReadSome len bound m s =
      (.bytes (s.rxq.take (min n len)),
        logEvent (.rxReadSome len bound) (.bytes (s.rxq.take (min n len))) (dropRx (min n len) s)) := by
  rw [rxReadSome, hm]

theorem rxReadSome_of_timeout {m : EnvMove} (hm : m.readSome = .timeout) (len : Nat) (bound : Micros) (s : State) :
    rxReadSome len bound m s = (.timeout, logEvent (.rxReadSome len bound) .timeout s) := by
  rw [rxReadSome, hm]

theorem rxReadSome_of_fail {m : EnvMove} (hm : m.readSome = .fail n) (len : Nat) (bound : Micros) (s : State) :
    rxReadSome len bound m s =
      (.fail, logEvent (.rxReadSome len bound) .fail (dropRx (min n len) s)) := by
  rw [rxReadSome, hm]

/-- Settles O30: the outcome of the read, and for one that returns bytes whether there is a first one. -/
theorem drainPhase : Obligations.DrainPhase := by
  rintro c s q hp rfl
  rw [← takeMove_events s, ← takeMove_drainbuf s, phaseStep_of_rstDrain hp, rstDrain]
  refine ⟨fun n hm hne => ?_, fun n hm hnil => ?_, fun hm => ?_, fun n hm => ?_⟩
  · obtain ⟨b, bs, hb⟩ := List.exists_cons_of_ne_nil hne
    rw [rxReadSome_of_bytes hm, hb]
    rfl
  · rw [rxReadSome_of_bytes hm, hnil, dropRx_of_take_eq_nil hnil]
    rfl
  · rw [rxReadSome_of_timeout hm]
    rfl
  · rw [rxReadSome_of_fail hm]
    rfl

theorem head?_take_min_one (q : List Byte) (n : Nat) :
    (q.take (min n 1)).head? = if n = 0 then none else q.head? := by
  cases n <;> cases q <;> simp

/-- Settles O32: the outcome of the read; one of a count above zero delivers the head of the queue. -/
theorem samplePhase : Obligations.SamplePhase := by
  rintro c s q hp rfl
  rw [← takeMove_events s, phaseStep_of_rstSample hp, rstSample]
  refine ⟨fun n hm => ?_, fun hm => ?_, fun n hm => ?_⟩
  · rw [rxReadSome_of_bytes hm, ← head?_take_min_one]
    rfl
  · rw [rxReadSome_of_timeout hm]
    rfl
  · rw [rxReadSome_of_fail hm]
    rfl

/-! ### The presence decision -/

theorem phaseStep_of_rstClassify (hp : s.phase = .rstClassify) : phaseStep c s = rstClassify c s := by
  rw [phaseStep, hp]

/-- Settles O33: the step is `rstClassify`, which responds and writes nothing else. -/
theorem classifyPhase : Obligations.ClassifyPhase := by
  intro c s hp
  exact ⟨by rw [outstandingCall, hp], phaseStep_of_rstClassify hp⟩

/-! ### The phase that reads eight bytes -/

theorem phaseStep_of_xchRx (hp : s.phase = .xchRx) : phaseStep c s = xchRx c s := by
  rw [phaseStep, hp]

theorem readArrived_of_le (h : n ≤ s.rxq.length) :
    readArrived n s = some (.bytes (s.rxq.take n), logEvent (.memRead n) (.bytes (s.rxq.take n)) (dropRx n s)) :=
  if_pos h

theorem readArrived_of_lt (h : s.rxq.length < n) : readArrived n s = none := if_neg (Nat.not_le.2 h)

theorem toList_charsOf {bs : List Byte} (h : bs.length = 8) : (charsOf bs).toList = bs := by
  match bs, h with
  | [_, _, _, _, _, _, _, _], _ => rfl

theorem memRead_of_arrive {m : EnvMove} (hm : m.readExact = .arrive) (n : Nat) (s : State) :
    memRead c n m s = readArrived n s := by
  rw [memRead, hm]

theorem memRead_of_fail {m : EnvMove} {k : Nat} (hm : m.readExact = .fail k) (n : Nat) (s : State) :
    memRead c n m s = some (.fail, logEvent (.memRead n) .fail (dropRx (min k n) s)) := by
  rw [memRead, hm]

theorem memRead_of_timeout {m : EnvMove} {k : Nat} (hm : m.readExact = .timeout k) (n : Nat) (s : State) :
    memRead c n m s =
      if c.slotReadTimeout ≠ none ∧ s.rxq.length < n then
        some (.timeout, logEvent (.memRead n) .timeout (dropRx (min k n) s))
      else readArrived n s := by
  rw [memRead, hm]

/-- Bytes that are there are delivered, unless a failure is reported. -/
theorem memRead_of_le {m : EnvMove} (hm : ∀ k, m.readExact ≠ .fail k) (h : n ≤ s.rxq.length) :
    memRead c n m s =
      some (.bytes (s.rxq.take n), logEvent (.memRead n) (.bytes (s.rxq.take n)) (dropRx n s)) := by
  rw [← readArrived_of_le h]
  cases hr : m.readExact with
  | arrive => exact memRead_of_arrive hr n s
  | fail k => exact absurd hr (hm k)
  | timeout k => exact (memRead_of_timeout hr n s).trans (if_neg fun hlt => Nat.not_lt.2 h hlt.2)

theorem phaseStep_of_received (hp : s.phase = .xchRx) (hm : ∀ k, (nextMove s).readExact ≠ .fail k)
    (h : 8 ≤ (takeMove s).rxq.length) :
    phaseStep c s = goto .xchDecode (setRxbuf (charsOf ((takeMove s).rxq.take 8))
      (logEvent (.memRead 8) (.bytes ((takeMove s).rxq.take 8)) (dropRx 8 (takeMove s)))) := by
  rw [phaseStep_of_xchRx hp, xchRx, memRead_of_le hm h]

/-- Settles O36: the bytes that are there, the failure, the bound that runs out first, and the two ways to go on
waiting. -/
theorem receivePhase : Obligations.ReceivePhase := by
  refine ⟨fun bs h => toList_charsOf h, ?_⟩
  rintro c s q hp rfl
  rw [← takeMove_events s, ← takeMove_responses s]
  refine ⟨fun hm hl => phaseStep_of_received hp hm hl, fun hm hl => ?_, fun n hm => ?_, fun n bound hm hc hl => ?_,
    fun n hm hc hl => ?_⟩ <;> rw [phaseStep_of_xchRx hp, xchRx]
  · rw [memRead_of_arrive hm, readArrived_of_lt hl]
  · rw [memRead_of_fail hm]
    rfl
  · rw [memRead_of_timeout hm, if_pos ⟨by rw [hc]; nofun, hl⟩]
    rfl
  · rw [memRead_of_timeout hm, if_neg fun h => h.1 hc, readArrived_of_lt hl]

end Sys2Proof.Machine
end

section
/-! SUPPORT. What the step of a phase does to each part of the state, from everything it can do: the phase, the response
port, the event history, the wire and the queue; and which outcomes are faults and which a call that waits. -/

namespace Sys2Proof.Machine

variable {c : Cfg} {s t : State} {k : Cap} {r : Rate} {next : Phase} {v : List Byte}

/-! ### The outstanding call -/

theorem RatePhase.outstandingCall (hp : RatePhase s.phase k r next) :
    outstandingCall c s = some (.setRate k r) := by
  cases hp with
  | slowTx hp => rw [Machine.outstandingCall, hp]
  | slowRx hp => rw [Machine.outstandingCall, hp]
  | fastTx hp => rw [Machine.outstandingCall, hp]
  | fastRx hp => rw [Machine.outstandingCall, hp]

theorem WritePhase.outstandingCall (hp : WritePhase c s v next) : outstandingCall c s = some (.memWrite v) := by
  cases hp with
  | pulse hp => rw [Machine.outstandingCall, hp]
  | exchange hp => rw [Machine.outstandingCall, hp]

theorem outstandingCall_of_rstDrain (hp : s.phase = .rstDrain) :
    outstandingCall c s = some (.rxReadSome c.drainBufLen c.tDrain) := by
  rw [outstandingCall, hp]

theorem outstandingCall_of_rstWait (hp : s.phase = .rstWait) : outstandingCall c s = some (.wait c.tResetWait) := by
  rw [outstandingCall, hp]

theorem outstandingCall_of_rstSample (hp : s.phase = .rstSample) :
    outstandingCall c s = some (.rxReadSome 1 c.tPresence) := by
  rw [outstandingCall, hp]

theorem outstandingCall_of_xchRx (hp : s.phase = .xchRx) : outstandingCall c s = some (.memRead slots) := by
  rw [outstandingCall, hp]

theorem outstandingCall_of_idle (hp : s.phase = .idle) : outstandingCall c s = none := by
  rw [outstandingCall, hp]

theorem outstandingCall_of_rstClassify (hp : s.phase = .rstClassify) : outstandingCall c s = none := by
  rw [outstandingCall, hp]

/-- A write is outstanding exactly in the two phases that write. -/
theorem outstandingCall_memWrite (h : outstandingCall c s = some (.memWrite v)) : ∃ next, WritePhase c s v next := by
  unfold outstandingCall at h
  split at h <;> cases h
  · exact ⟨_, .pulse ‹_›⟩
  · exact ⟨_, .exchange ‹_›⟩

/-! ### The phase and the response port -/

theorem PhaseOutcome.mayFollow (h : PhaseOutcome c s t) : t.phase ∈ mayFollow s.phase := by
  cases h with
  | idle hp | drainLoops hp | drainEnds hp | waited hp | sampled hp | classified hp | encoded hp | received hp
    | receiveFailed hp | receiveTimedOut hp | receiveWaits hp | decoded hp => simp [hp, Machine.mayFollow]
  | rateSet hp => cases hp with | slowTx hp | slowRx hp | fastTx hp | fastRx hp => simp [hp, Machine.mayFollow]
  | rateRejected hp => cases hp with | slowTx hp | slowRx hp | fastTx hp | fastRx hp => simp [hp, Machine.mayFollow]
  | written hp | writeFailed hp | writeWaits hp => cases hp with | pulse hp | exchange hp => simp [hp, Machine.mayFollow]

/-- Settles O20: each outcome of each phase, against the sequence. -/
theorem phaseFollowsSequence : Obligations.PhaseFollowsSequence := fun c s => (phaseStep_outcome c s).mayFollow

theorem RatePhase.next_ne_idle (hp : RatePhase s.phase k r next) : next ≠ .idle := by cases hp <;> nofun

theorem WritePhase.next_ne_idle (hp : WritePhase c s v next) : next ≠ .idle := by cases hp <;> nofun

theorem WritePhase.phase_ne_idle (hp : WritePhase c s v next) : s.phase ≠ .idle := by
  cases hp with
  | pulse hp | exchange hp => rw [hp]; nofun

/-- A step of a phase leaves the response port alone, and stays busy where it was, or presents one response and
returns to `IDLE`: an `OK`, or a fault, which carries nothing. -/
theorem PhaseOutcome.response (h : PhaseOutcome c s t) :
    (t.responses = s.responses ∧ t.response = s.response ∧ (s.phase ≠ .idle → t.phase ≠ .idle)) ∨
    (∃ w, legalResponse w = true ∧ t.phase = .idle ∧ t.responses = s.responses ++ [w] ∧ t.response = some w) := by
  cases h with
  | idle => exact .inl ⟨by simp, by simp, by simp⟩
  | rateSet hp => exact .inl ⟨by simp, by simp, fun _ => hp.next_ne_idle⟩
  | written hp => exact .inl ⟨by simp, by simp, fun _ => hp.next_ne_idle⟩
  | writeWaits => exact .inl ⟨by simp, by simp, by simp⟩
  | receiveWaits => exact .inl ⟨by simp, by simp, by simp⟩
  | drainLoops | drainEnds | waited | sampled | encoded | received => exact .inl ⟨by simp, by simp, by simp⟩
  | rateRejected => exact .inr ⟨_, legalResponse_fault _, rfl, by simp, rfl⟩
  | writeFailed => exact .inr ⟨_, legalResponse_fault _, rfl, by simp, rfl⟩
  | receiveFailed => exact .inr ⟨_, legalResponse_fault _, rfl, by simp, rfl⟩
  | receiveTimedOut => exact .inr ⟨_, legalResponse_fault _, rfl, by simp, rfl⟩
  | classified => exact .inr ⟨_, legalResponse_ok _ _, rfl, rfl, rfl⟩
  | decoded => exact .inr ⟨_, legalResponse_ok _ _, rfl, rfl, rfl⟩

/-- Settles O41: what a step does to the response port, in a busy state. -/
theorem oneResponseOnReturn : Obligations.OneResponseOnReturn := by
  intro c s hb
  rcases (phaseStep_outcome c s).response with ⟨h1, h2, h3⟩ | h
  · exact .inl ⟨h3 hb, h1, h2⟩
  · exact .inr h

/-- Settles O40: in both phases the response is left alone, since what may follow them is not `IDLE`. -/
theorem drainAndSampleNeverFault : Obligations.DrainAndSampleNeverFault := by
  intro c s
  have hstep := phaseStep_outcome c s
  have hphase := hstep.mayFollow
  refine ⟨fun hp => ?_, fun hp => ?_⟩ <;> rw [hp] at hphase <;>
    rcases hstep.response with ⟨h, -⟩ | ⟨w, -, hidle, -⟩
  · exact ⟨h, by simpa [mayFollow] using hphase⟩
  · simp [mayFollow, hidle] at hphase
  · exact ⟨h, by simpa [mayFollow] using hphase⟩
  · simp [mayFollow, hidle] at hphase

/-! ### The event history -/

/-- A step records the outstanding call, or no call has returned in it. -/
theorem PhaseOutcome.events (h : PhaseOutcome c s t) :
    (t.events = s.events ∧ (outstandingCall c s ≠ none → t = takeMove s)) ∨
    (∃ k o, outstandingCall c s = some k ∧ t.events = s.events ++ [{ call := k, outcome := o }]) := by
  cases h with
  | idle | writeWaits | receiveWaits => exact .inl ⟨takeMove_events s, fun _ => rfl⟩
  | classified hp => exact .inl ⟨rfl, fun h => absurd (outstandingCall_of_rstClassify hp) h⟩
  | encoded hp => exact .inl ⟨rfl, fun h => absurd (outstandingCall_of_xchEncode hp) h⟩
  | decoded hp => exact .inl ⟨rfl, fun h => absurd (outstandingCall_of_xchDecode hp) h⟩
  | rateSet hp => exact .inr ⟨_, .ok, hp.outstandingCall, by simp⟩
  | rateRejected hp => exact .inr ⟨_, .fail, hp.outstandingCall, by simp⟩
  | written hp | writeFailed hp => exact .inr ⟨_, _, hp.outstandingCall, congrArg (· ++ _) (takeMove_events s)⟩
  | drainLoops hp | drainEnds hp =>
    exact .inr ⟨_, _, outstandingCall_of_rstDrain hp, congrArg (· ++ _) (takeMove_events s)⟩
  | waited hp => exact .inr ⟨_, _, outstandingCall_of_rstWait hp, congrArg (· ++ _) (takeMove_events s)⟩
  | sampled hp => exact .inr ⟨_, _, outstandingCall_of_rstSample hp, congrArg (· ++ _) (takeMove_events s)⟩
  | received hp | receiveFailed hp | receiveTimedOut hp =>
    exact .inr ⟨_, _, outstandingCall_of_xchRx hp, congrArg (· ++ _) (takeMove_events s)⟩

/-- Settles O42: what a step does to the event history. -/
theorem oneCallAtATime : Obligations.OneCallAtATime := fun c s => (phaseStep_outcome c s).events

/-! ### The wire -/

/-- A step puts the first characters of an outstanding write on the wire, all of them when it returns `Ok`, and nothing
else. -/
theorem PhaseOutcome.txStream (h : PhaseOutcome c s t) :
    (∃ v n, outstandingCall c s = some (.memWrite v) ∧
      t.txStream = s.txStream ++ (v.take n).map (fun x => { char := x, rate := s.txRate }) ∧
      (t.events = s.events ++ [{ call := .memWrite v, outcome := .ok }] → n = v.length)) ∨
    ((∀ v, outstandingCall c s ≠ some (.memWrite v)) ∧ t.txStream = s.txStream) := by
  cases h with
  | written hp => exact .inl ⟨_, _, hp.outstandingCall, by rw [List.take_length]; simp, fun _ => rfl⟩
  | writeFailed hp => exact .inl ⟨_, _, hp.outstandingCall, by simp; rfl, by simp⟩
  | writeWaits hp => exact .inl ⟨_, 0, hp.outstandingCall, by simp, by simp⟩
  | idle hp => exact .inr ⟨by simp [outstandingCall_of_idle hp], by simp⟩
  | rateSet hp | rateRejected hp => exact .inr ⟨by simp [hp.outstandingCall], by simp⟩
  | drainLoops hp | drainEnds hp => exact .inr ⟨by simp [outstandingCall_of_rstDrain hp], by simp⟩
  | waited hp => exact .inr ⟨by simp [outstandingCall_of_rstWait hp], by simp⟩
  | sampled hp => exact .inr ⟨by simp [outstandingCall_of_rstSample hp], by simp⟩
  | classified hp => exact .inr ⟨by simp [outstandingCall_of_rstClassify hp], rfl⟩
  | encoded hp => exact .inr ⟨by simp [outstandingCall_of_xchEncode hp], rfl⟩
  | received hp | receiveFailed hp | receiveTimedOut hp | receiveWaits hp =>
    exact .inr ⟨by simp [outstandingCall_of_xchRx hp], by simp⟩
  | decoded hp => exact .inr ⟨by simp [outstandingCall_of_xchDecode hp], rfl⟩

/-- Settles O46: what a step puts on the wire. -/
theorem writesReachTheWire : Obligations.WritesReachTheWire := fun c s => (phaseStep_outcome c s).txStream

/-! ### The queue -/

theorem SomeRead.le {len n : Nat} {q : List Byte} {o : CallOutcome} (h : SomeRead len q o n) : n ≤ len := by
  cases h with
  | bytes _ hk | fail _ hk => exact hk
  | timeout => exact Nat.zero_le _

theorem SomeRead.eq_zero_of_timeout {len n : Nat} {q : List Byte} (h : SomeRead len q .timeout n) : n = 0 := by
  cases h; rfl

theorem SomeRead.eq_take_of_bytes {len n : Nat} {q bs : List Byte} (h : SomeRead len q (.bytes bs) n) :
    bs = q.take n := by
  cases h; rfl

/-- From `s` to `t` the outstanding call has taken the first `n` bytes of the queue and what arrived: as many as it may,
and those it delivered, if any. -/
structure TakesHead (c : Cfg) (s t : State) (n : Nat) : Prop where
  le : n ≤ askedBy (outstandingCall c s)
  rxq : t.rxq = (s.rxq ++ (nextMove s).arrivals).drop n
  pending : t.events = s.events → n = 0
  timeout : ∀ len bound, t.events = s.events ++ [{ call := .rxReadSome len bound, outcome := .timeout }] → n = 0
  bytes : ∀ call bs, t.events = s.events ++ [{ call := call, outcome := .bytes bs }] →
    bs = (s.rxq ++ (nextMove s).arrivals).take n

/-- A call that has returned without bytes, or has not returned, may have taken none. -/
theorem takesHead_zero (hq : t.rxq = (takeMove s).rxq)
    (he : ∀ call bs, t.events ≠ s.events ++ [{ call := call, outcome := .bytes bs }]) : TakesHead c s t 0 where
  le := Nat.zero_le _
  rxq := hq.trans (takeMove_rxq s)
  pending _ := rfl
  timeout _ _ _ := rfl
  bytes _ _ h := absurd h (he _ _)

/-- An `RxReadSome` takes what it returned or removed. -/
theorem takesHead_someRead {len n : Nat} {bound : Micros} {o : CallOutcome}
    (hc : outstandingCall c s = some (.rxReadSome len bound)) (hr : SomeRead len (takeMove s).rxq o n)
    (hq : t.rxq = (takeMove s).rxq.drop n)
    (he : t.events = s.events ++ [{ call := .rxReadSome len bound, outcome := o }]) : TakesHead c s t n where
  le := by rw [hc]; exact hr.le
  rxq := by rw [hq, takeMove_rxq]
  pending h := by simp [he] at h
  timeout len bound h := by
    obtain ⟨-, rfl⟩ : _ ∧ o = .timeout := by simpa [he] using h
    exact hr.eq_zero_of_timeout
  bytes call bs h := by
    obtain ⟨-, rfl⟩ : _ ∧ o = .bytes bs := by simpa [he] using h
    rw [← takeMove_rxq]
    exact hr.eq_take_of_bytes

/-- A `MemRead` of `slots` bytes that did not deliver may have removed as many. -/
theorem takesHead_memRead {n : Nat} {o : CallOutcome} (hp : s.phase = .xchRx) (hn : n ≤ slots)
    (hq : t.rxq = (takeMove s).rxq.drop n) (he : t.events = s.events ++ [{ call := .memRead slots, outcome := o }])
    (ho : ∀ bs, o = .bytes bs → bs = (takeMove s).rxq.take n) : TakesHead c s t n where
  le := by rw [outstandingCall_of_xchRx hp]; exact hn
  rxq := by rw [hq, takeMove_rxq]
  pending h := by simp [he] at h
  timeout len bound h := by simp [he] at h
  bytes call bs h := by
    obtain ⟨-, rfl⟩ : _ ∧ o = .bytes bs := by simpa [he] using h
    rw [← takeMove_rxq]
    exact ho bs rfl

/-- A busy phase without a call leaves the queue as it is, and every other step takes from the head of it. -/
theorem PhaseOutcome.rxq (h : PhaseOutcome c s t) :
    ((outstandingCall c s = none ∧ s.phase ≠ .idle) ∧ t.rxq = s.rxq) ∨
    (¬ (outstandingCall c s = none ∧ s.phase ≠ .idle) ∧ ∃ n, TakesHead c s t n) := by
  cases h with
  | idle hp => exact .inr ⟨fun h => h.2 hp, 0, takesHead_zero rfl (by simp)⟩
  | rateSet hp | rateRejected hp => exact .inr ⟨by simp [hp.outstandingCall], 0, takesHead_zero (by simp) (by simp)⟩
  | written hp | writeFailed hp => exact .inr ⟨by simp [hp.outstandingCall], 0, takesHead_zero (by simp) (by simp)⟩
  | writeWaits hp => exact .inr ⟨by simp [hp.outstandingCall], 0, takesHead_zero rfl (by simp)⟩
  | drainLoops hp hr | drainEnds hp hr =>
    have hc := outstandingCall_of_rstDrain (c := c) hp
    exact .inr ⟨by simp [hc], _, takesHead_someRead hc hr (by simp) (by simp)⟩
  | waited hp => exact .inr ⟨by simp [outstandingCall_of_rstWait hp], 0, takesHead_zero rfl (by simp)⟩
  | sampled hp hr =>
    have hc := outstandingCall_of_rstSample (c := c) hp
    exact .inr ⟨by simp [hc], _, takesHead_someRead hc hr (by simp) (by simp)⟩
  | classified hp => exact .inl ⟨⟨outstandingCall_of_rstClassify hp, by simp [hp]⟩, rfl⟩
  | encoded hp => exact .inl ⟨⟨outstandingCall_of_xchEncode hp, by simp [hp]⟩, rfl⟩
  | received hp =>
    exact .inr ⟨by simp [outstandingCall_of_xchRx hp], _,
      takesHead_memRead hp le_rfl rfl (congrArg (· ++ _) (takeMove_events s)) (by simp)⟩
  | receiveFailed hp | receiveTimedOut hp =>
    exact .inr ⟨by simp [outstandingCall_of_xchRx hp], _,
      takesHead_memRead hp (Nat.min_le_right ..) rfl (congrArg (· ++ _) (takeMove_events s)) (by simp)⟩
  | receiveWaits hp => exact .inr ⟨by simp [outstandingCall_of_xchRx hp], 0, takesHead_zero rfl (by simp)⟩
  | decoded hp => exact .inl ⟨⟨outstandingCall_of_xchDecode hp, by simp [hp]⟩, rfl⟩

/-- Settles O45: what a step takes from the queue. -/
theorem readsTakeTheHead : Obligations.ReadsTakeTheHead := by
  intro c s
  rcases (phaseStep_outcome c s).rxq with h | ⟨hb, n, h⟩
  · exact .inl h
  · refine .inr ⟨hb, n, h.le, h.rxq, h.pending, ?_⟩
    rintro ⟨call, o⟩ he
    refine ⟨fun len bound hcall => h.timeout len bound (hcall ▸ he), ?_⟩
    rintro bs rfl
    exact h.bytes call bs he

end Sys2Proof.Machine
end

section
/-! SUPPORT. When a step of a phase presents a fault (60_exceptions.md section 1), and when the outstanding call has not
returned (60_exceptions.md section 6). -/

namespace Sys2Proof.Machine

variable {c : Cfg} {s t : State} {f : Status}

/-! ### The fault table -/

/-- The rows of the fault table (R200, R204): the phase and the outcome that raise the fault. -/
inductive FaultRow (c : Cfg) (s : State) : Status → Prop
  | configurationFailed {left : Rate}
      (hp : s.phase = .rstSlowTx ∨ s.phase = .rstSlowRx ∨ s.phase = .rstFastTx ∨ s.phase = .rstFastRx)
      (hm : (nextMove s).setRate = .fail left) : FaultRow c s .configurationFailed
  | transmitFailed {n : Nat} (hp : s.phase = .rstPulse ∨ s.phase = .xchTx) (hm : (nextMove s).write = .fail n) :
      FaultRow c s .transmitFailed
  | receiveFailed {n : Nat} (hp : s.phase = .xchRx) (hm : (nextMove s).readExact = .fail n) :
      FaultRow c s .receiveFailed
  | receiveTimeout {n : Nat} (hp : s.phase = .xchRx) (hc : c.slotReadTimeout ≠ none)
      (hl : (takeMove s).rxq.length < 8) (hm : (nextMove s).readExact = .timeout n) : FaultRow c s .receiveTimeout

theorem RatePhase.phase_mem {k : Cap} {r : Rate} {next : Phase} (hp : RatePhase s.phase k r next) :
    s.phase = .rstSlowTx ∨ s.phase = .rstSlowRx ∨ s.phase = .rstFastTx ∨ s.phase = .rstFastRx := by
  cases hp with
  | slowTx hp => exact .inl hp
  | slowRx hp => exact .inr (.inl hp)
  | fastTx hp => exact .inr (.inr (.inl hp))
  | fastRx hp => exact .inr (.inr (.inr hp))

theorem exists_ratePhase
    (hp : s.phase = .rstSlowTx ∨ s.phase = .rstSlowRx ∨ s.phase = .rstFastTx ∨ s.phase = .rstFastRx) :
    ∃ k r next, RatePhase s.phase k r next := by
  rcases hp with hp | hp | hp | hp
  · exact ⟨_, _, _, .slowTx hp⟩
  · exact ⟨_, _, _, .slowRx hp⟩
  · exact ⟨_, _, _, .fastTx hp⟩
  · exact ⟨_, _, _, .fastRx hp⟩

theorem WritePhase.phase_mem {v : List Byte} {next : Phase} (hp : WritePhase c s v next) :
    s.phase = .rstPulse ∨ s.phase = .xchTx := by
  cases hp with
  | pulse hp => exact .inl hp
  | exchange hp => exact .inr hp

theorem exists_writePhase (hp : s.phase = .rstPulse ∨ s.phase = .xchTx) : ∃ v next, WritePhase c s v next := by
  rcases hp with hp | hp
  · exact ⟨_, _, .pulse hp⟩
  · exact ⟨_, _, .exchange hp⟩

/-- A step that presents a fault is in the fault's row. -/
theorem PhaseOutcome.faultRow (h : PhaseOutcome c s t) (hf : f ≠ .ok)
    (hr : t.responses = s.responses ++ [responseWord f false 0x00#8]) : FaultRow c s f := by
  cases h with
  | rateRejected hp hm =>
    obtain rfl := responseWord_inj (by simpa using hr)
    exact .configurationFailed hp.phase_mem hm
  | writeFailed hp hm =>
    obtain rfl := responseWord_inj (by simpa using hr)
    exact .transmitFailed hp.phase_mem hm
  | receiveFailed hp hm =>
    obtain rfl := responseWord_inj (by simpa using hr)
    exact .receiveFailed hp hm
  | receiveTimedOut hp hm hc hl =>
    obtain rfl := responseWord_inj (by simpa using hr)
    exact .receiveTimeout hp hc hl hm
  | classified | decoded => exact absurd (responseWord_inj (by simpa using hr)).symm hf
  | idle | rateSet | written | writeWaits | drainLoops | drainEnds | waited | sampled | encoded | received
    | receiveWaits => simp at hr

/-- In the fault's row the step presents it. -/
theorem FaultRow.responses (h : FaultRow c s f) :
    (phaseStep c s).responses = s.responses ++ [responseWord f false 0x00#8] := by
  cases h with
  | configurationFailed hp hm =>
    obtain ⟨k, r, next, hp⟩ := exists_ratePhase hp
    rw [phaseStep_of_rate_fail hp hm]
    simp
  | transmitFailed hp hm =>
    obtain ⟨v, next, hp⟩ := exists_writePhase (c := c) hp
    rw [phaseStep_of_writePhase_fail hp hm]
    simp
  | receiveFailed hp hm =>
    rw [phaseStep_of_xchRx hp, xchRx, memRead_of_fail hm]
    simp
  | receiveTimeout hp hc hl hm =>
    rw [phaseStep_of_xchRx hp, xchRx, memRead_of_timeout hm, if_pos ⟨hc, hl⟩]
    simp

/-- Settles O38: a fault is presented exactly in its row. -/
theorem faultTable : Obligations.FaultTable := by
  refine ⟨by decide, fun c s f hf => ⟨fun h => ?_, fun h => FaultRow.responses ?_⟩⟩
  · cases (phaseStep_outcome c s).faultRow hf h with
    | configurationFailed hp hm => exact .inl ⟨rfl, hp, _, hm⟩
    | transmitFailed hp hm => exact .inr (.inl ⟨rfl, hp, _, hm⟩)
    | receiveFailed hp hm => exact .inr (.inr (.inl ⟨rfl, hp, _, hm⟩))
    | receiveTimeout hp hc hl hm => exact .inr (.inr (.inr ⟨rfl, hp, hc, hl, _, hm⟩))
  · rcases h with ⟨rfl, hp, _, hm⟩ | ⟨rfl, hp, _, hm⟩ | ⟨rfl, hp, _, hm⟩ | ⟨rfl, hp, hc, hl, _, hm⟩
    · exact .configurationFailed hp hm
    · exact .transmitFailed hp hm
    · exact .receiveFailed hp hm
    · exact .receiveTimeout hp hc hl hm

/-- A step that takes a command or obeys a block reset presents nothing. -/
theorem step_responses (h : step s = .next t) :
    t.responses = s.responses ∨ (fetchWord s = none ∧ t = phaseStep Config.owbt s) := by
  rcases step_cases h with ⟨-, rfl⟩ | ⟨-, hf, rfl⟩ | ⟨w, i, -, hf, -, he⟩
  · exact .inl (by simp)
  · exact .inr ⟨hf, rfl⟩
  · rcases exec_idle (by simpa using (fetchWord_some hf).1) he with rfl | ⟨v, rfl⟩ <;> exact .inl rfl

/-- Settles O39: the row of `ReceiveTimeout` needs a bound, and this hardware has none. -/
theorem noTimeoutFaultHere : Obligations.NoTimeoutFaultHere := by
  intro s t hs hr
  rcases step_responses hs with h | ⟨-, rfl⟩
  · simp [h] at hr
  · cases (phaseStep_outcome Config.owbt s).faultRow (by decide) hr with
    | receiveTimeout hp hc => exact hc rfl

/-! ### A call that has not returned -/

theorem memWrite_eq_none_iff (v : List Byte) (m : EnvMove) (s : State) :
    memWrite v m s = none ↔ m.write = .waiting := by
  rcases memWrite_cases v m s with ⟨hm, h⟩ | ⟨n, hm, h⟩ | ⟨hm, h⟩ <;> simp [h, hm]

/-- A `MemRead` waits while its bytes are missing, no failure is reported and no bound runs out. -/
theorem memRead_eq_none_iff (c : Cfg) (n : Nat) (m : EnvMove) (s : State) :
    memRead c n m s = none ↔ s.rxq.length < n ∧ (∀ k, m.readExact ≠ .fail k) ∧
      (c.slotReadTimeout ≠ none → ∀ k, m.readExact ≠ .timeout k) := by
  rcases memRead_cases c n m s with ⟨hl, hf, h⟩ | ⟨k, hm, h⟩ | ⟨k, hm, hc, hl, h⟩ | ⟨hl, hf, ht, h⟩ <;> rw [h]
  · exact iff_of_false nofun fun hw => Nat.not_lt.2 hl hw.1
  · exact iff_of_false nofun fun hw => hw.2.1 k hm
  · exact iff_of_false nofun fun hw => hw.2.2 hc k hm
  · exact iff_of_true rfl ⟨hl, hf, ht⟩

theorem callWaits_iff (c : Cfg) (s : State) :
    callWaits c s = true ↔
      (s.phase = .rstPulse ∨ s.phase = .xchTx) ∧ (nextMove s).write = .waiting ∨
      s.phase = .xchRx ∧ (takeMove s).rxq.length < 8 ∧ (∀ n, (nextMove s).readExact ≠ .fail n) ∧
        (c.slotReadTimeout ≠ none → ∀ n, (nextMove s).readExact ≠ .timeout n) := by
  unfold callWaits
  split
  next hp => simp [hp, memWrite_eq_none_iff]
  next hp => simp [hp, memWrite_eq_none_iff]
  next hp => simp [hp, memRead_eq_none_iff]
  next h1 h2 h3 =>
    refine iff_of_false nofun ?_
    rintro (⟨hp | hp, -⟩ | ⟨hp, -⟩)
    exacts [h1 hp, h2 hp, h3 hp]

/-- A call that waits leaves the step to the environment. -/
theorem phaseStep_of_callWaits (h : callWaits c s = true) : phaseStep c s = takeMove s := by
  rcases (callWaits_iff c s).1 h with ⟨hp, hm⟩ | ⟨hp, h⟩
  · obtain ⟨v, next, hp⟩ := exists_writePhase (c := c) hp
    exact phaseStep_of_write_waiting hp hm
  · rw [phaseStep_of_xchRx hp, xchRx, (memRead_eq_none_iff c slots (nextMove s) (takeMove s)).2 h]

/-- A call that is not recorded waits. -/
theorem PhaseOutcome.callWaits (h : PhaseOutcome c s t) (hc : outstandingCall c s ≠ none)
    (he : t.events = s.events) : callWaits c s = true := by
  cases h with
  | writeWaits hp hm => exact (callWaits_iff c s).2 (.inl ⟨hp.phase_mem, hm⟩)
  | receiveWaits hp hl hf ht => exact (callWaits_iff c s).2 (.inr ⟨hp, hl, hf, ht⟩)
  | idle hp => exact absurd (outstandingCall_of_idle hp) hc
  | classified hp => exact absurd (outstandingCall_of_rstClassify hp) hc
  | encoded hp => exact absurd (outstandingCall_of_xchEncode hp) hc
  | decoded hp => exact absurd (outstandingCall_of_xchDecode hp) hc
  | rateSet | rateRejected | written | writeFailed | drainLoops | drainEnds | waited | sampled | received
    | receiveFailed | receiveTimedOut => simp at he

/-- Settles O43: a call that waits is one that is not recorded, and the three phases in which one can. -/
theorem stuckOnlyInThreePhases : Obligations.StuckOnlyInThreePhases := by
  refine ⟨fun c s hc => ⟨(phaseStep_outcome c s).callWaits hc, fun h => ?_⟩, fun c s h => ?_, fun c s hp hc => ?_⟩
  · rw [phaseStep_of_callWaits h, takeMove_events]
  · exact ((callWaits_iff c s).1 h).imp_right And.left
  · simp [callWaits_iff, hp, hc]

end Sys2Proof.Machine
end

section
/-! SUPPORT. What a step is where a block reset is due, where a word is taken and elsewhere (10_state.md section 3,
70_reset_and_hazards.md section 1), and the acceptance of each command. -/

namespace Sys2Proof.Machine

variable {s : State} {w : CommandWord} {rest : List CommandWord} {i : Instr}

/-! ### Acceptance -/

/-- Settles O22: acceptance writes the phase, the response port and, for an exchange, `OPERAND`. -/
theorem acceptanceInIdle : Obligations.AcceptanceInIdle := by
  intro s hp
  simp only [exec, execReset, execWriteReadByte, execReadByte, hp]
  exact ⟨rfl, fun _ => rfl, rfl⟩

/-- Settles O23: no arm of `exec` has an effect outside `IDLE`. -/
theorem commandTurnedAwayWhenBusy : Obligations.CommandTurnedAwayWhenBusy := fun i _ hp => exec_busy hp i

theorem exec_readByte_eq (s : State) : exec .readByte s = exec (.writeReadByte 0xFF) s := rfl

/-- Every command has its meaning in every state. -/
theorem exists_exec_eq_next (i : Instr) (s : State) : ∃ t, exec i s = .next t := by
  by_cases hp : s.phase = .idle
  · obtain ⟨hreset, hwrite, hread⟩ := acceptanceInIdle s hp
    cases i with
    | reset => exact ⟨_, hreset⟩
    | writeReadByte d => exact ⟨_, hwrite d⟩
    | readByte => exact ⟨_, hread⟩
  · exact ⟨s, exec_busy hp i⟩

/-! ### The cases of a step -/

theorem resetDue_eq_false (h : ∀ k, s.inputs.head? ≠ some (.blockReset k)) : resetDue s = false := by
  rw [Bool.eq_false_iff, ne_eq, resetDue_iff]
  rintro ⟨k, rest, hi⟩
  exact h k (by rw [hi]; rfl)

theorem fetchWord_of_offers (hp : s.phase = .idle) (ho : s.offers = w :: rest) : fetchWord s = some w := by
  rw [fetchWord, hp, ho]
  rfl

theorem fetchWord_of_no_offers (hp : s.phase = .idle) (ho : s.offers = []) : fetchWord s = none := by
  rw [fetchWord, hp, ho]
  rfl

theorem step_of_reset (h : resetDue s = true) :
    step s = .next (blockReset (cutCall Config.owbt (cutCount s) (dropInput s))) := by
  rw [step, if_pos h]

theorem step_of_no_word (h : resetDue s = false) (hf : fetchWord s = none) :
    step s = .next (phaseStep Config.owbt s) := by
  simp only [step, h, hf, Bool.false_eq_true, if_false]

/-- A busy block takes the step of its phase. -/
theorem step_of_busy (h : resetDue s = false) (hp : s.phase ≠ .idle) : step s = .next (phaseStep Config.owbt s) :=
  step_of_no_word h (fetchWord_busy hp)

theorem step_of_decode (h : resetDue s = false) (hf : fetchWord s = some w) (hd : decode w = .ok i) :
    step s = exec i (takeOffer s) := by
  simp only [step, h, hf, hd, Bool.false_eq_true, if_false]

theorem step_of_reserved (h : resetDue s = false) (hf : fetchWord s = some w)
    (hd : decode w = .error .reservedOp) : step s = .refused (.reservedOpcode w) := by
  simp only [step, h, hf, hd, Bool.false_eq_true, if_false]

/-- Taking the first of the words that the host holds leaves it the others. -/
theorem takeOffer_of_offers (ho : s.offers = w :: rest) : takeOffer s = { s with offers := rest } := by
  rw [takeOffer, ho, List.tail_cons]

/-- Settles O15: the word is taken and decoded. -/
theorem stepRunsDecodedCommand : Obligations.StepRunsDecodedCommand := by
  intro s w rest i hp hi ho hd
  rw [step_of_decode (resetDue_eq_false hi) (fetchWord_of_offers hp ho) hd, takeOffer_of_offers ho]

/-- Settles O16: the reset that is due, the wait in `IDLE`, and the step of the phase. -/
theorem stepElsewhere : Obligations.StepElsewhere := by
  refine ⟨fun s k rest hi => ?_, fun s hi hp ho => ?_, fun s hi hp => step_of_busy (resetDue_eq_false hi) hp⟩
  · have htail : rest = s.inputs.tail := by rw [hi, List.tail_cons]
    rw [step_of_reset ((resetDue_iff s).2 ⟨k, rest, hi⟩), cutCount_of_inputs hi, htail]
    rfl
  · rw [step_of_no_word (resetDue_eq_false hi) (fetchWord_of_no_offers hp ho), phaseStep, hp]

theorem decodeTableWord_eq_some_iff (nbits n : Nat) (i : Instr) :
    decodeTableWord nbits n = some i ↔ decode (tableWord nbits n) = .ok i := by
  unfold decodeTableWord
  cases decode (tableWord nbits n) <;> simp

/-- Settles O17: the placed word is the first one of an idle block, before which no block reset is due. -/
theorem placedWordRuns : Obligations.PlacedWordRuns := by
  intro s nbits n i hd
  refine stepRunsDecodedCommand _ _ s.offers i rfl (fun k hk => ?_) rfl ((decodeTableWord_eq_some_iff ..).1 hd)
  have hdue := List.head?_dropWhile_not isBlockReset s.inputs
  rw [show s.inputs.dropWhile isBlockReset = (s.withFetchWord nbits n).inputs from rfl, hk] at hdue
  exact absurd hdue nofun

theorem and_opMask_eq_reserved_iff (w : CommandWord) : w &&& opMask = 0x300#10 ↔ decode w = .error .reservedOp := by
  rw [decode_eq_reserved_iff, ← and_opMask_eq_append_iff]
  rfl

/-- Settles O18: `step` answers the refusal of a reserved word that it takes, and a next state otherwise. -/
theorem stopsExactlyOnReservedWords : Obligations.StopsExactlyOnReservedWords := by
  refine ⟨fun s => ?_, fun s w rest hp hi ho hw => ?_⟩
  · cases hr : resetDue s with
    | true => exact .inl ⟨_, step_of_reset hr⟩
    | false =>
      cases hf : fetchWord s with
      | none => exact .inl ⟨_, step_of_no_word hr hf⟩
      | some w =>
        cases hd : decode w with
        | ok i => exact .inl (step_of_decode hr hf hd ▸ exists_exec_eq_next i _)
        | error e =>
          obtain ⟨hp, ho⟩ := fetchWord_some hf
          obtain ⟨rest, ho⟩ := List.head?_eq_some_iff.1 ho
          exact .inr ⟨w, rest, hp, ho, (and_opMask_eq_reserved_iff w).2 hd, step_of_reserved hr hf hd⟩
  · exact step_of_reserved (resetDue_eq_false hi) (fetchWord_of_offers hp ho) ((and_opMask_eq_reserved_iff w).1 hw)

/-- Settles O27: the words of the `READ_BYTE` row and 0x1FF decode to the two commands, which are accepted alike. -/
theorem readByteIsExchangeOfOnes : Obligations.ReadByteIsExchangeOfOnes := by
  refine ⟨exec_readByte_eq, fun s w rest hp hi hw => ?_⟩
  have hread : decode w = .ok .readByte := decode_of_and_opMask nofun hw
  have hones : decode 0x1FF#10 = .ok (.writeReadByte 0xFF) := by decide
  rw [stepRunsDecodedCommand { s with offers := w :: rest } w rest _ hp hi rfl hread,
    stepRunsDecodedCommand { s with offers := 0x1FF#10 :: rest } 0x1FF#10 rest _ hp hi rfl hones, exec_readByte_eq]

/-! ### Block reset -/

/-- Settles O50: each field of the state after block reset. -/
theorem resetState : Obligations.ResetState := ⟨rfl, rfl, rfl, rfl, rfl, rfl, rfl, rfl, rfl⟩

/-- What a cut call leaves on the wire. -/
theorem cutCall_txStream (c : Cfg) (n : Nat) (s : State) :
    (∀ v, outstandingCall c s = some (.memWrite v) →
      (cutCall c n s).txStream = s.txStream ++ (v.take n).map fun x => { char := x, rate := s.txRate }) ∧
    ((∀ v, outstandingCall c s ≠ some (.memWrite v)) → (cutCall c n s).txStream = s.txStream) := by
  refine ⟨fun v hv => by rw [cutCall, hv]; rfl, fun hv => ?_⟩
  rcases cutCall_cases c n s with ⟨v, hc, -⟩ | ⟨-, h⟩
  · exact absurd hc (hv v)
  · rw [h]

/-- Settles O51: the block's own state is reset, and the call it had outstanding is cut. -/
theorem blockResetKeepsTheOutside : Obligations.BlockResetKeepsTheOutside := by
  intro s k rest hi
  obtain ⟨hwrite, hother⟩ := cutCall_txStream Config.owbt k { s with inputs := rest }
  exact ⟨_, stepElsewhere.1 s k rest hi, rfl, rfl, by simp, by simp, by simp, by simp, by simp, hwrite, hother, by simp,
    by simp⟩

end Sys2Proof.Machine
end

section
/-! SUPPORT. The invariant of the machine (10_state.md section 5, 20_memory.md section 2, 30_encoding.md R95, R97, R111):
each of its parts is kept by the step of a phase, and all of them by accepting a command and by a block reset. -/

namespace Sys2Proof.Machine

variable {s t : State}

/-! ### The event history -/

/-- Recording a legal call with an outcome it has keeps the history legal. -/
theorem eventLegal_logEvent {k : Call} {o : CallOutcome} (hi : ∀ e ∈ s.events, eventLegal e)
    (he : eventLegal { call := k, outcome := o }) : ∀ e ∈ (logEvent k o (takeMove s)).events, eventLegal e := by
  intro e h
  rw [logEvent_events, takeMove_events, List.mem_append, List.mem_singleton] at h
  rcases h with h | rfl
  · exact hi e h
  · exact he

/-- The characters of a write are the reset character or an encoded byte (R111). -/
theorem WritePhase.chars {v : List Byte} {next : Phase} (hp : WritePhase Config.owbt s v next) (ht : txbufEncodes s) :
    v = [0xF0] ∨ ∃ b, v = (encByte Config.owbt b).toList := by
  cases hp with
  | pulse => exact .inl rfl
  | exchange hp => exact .inr ⟨s.operand, by rw [ht (.inl hp)]⟩

theorem eventLegal_someRead {len n : Nat} {bound : Micros} {q : List Byte} {o : CallOutcome}
    (hb : (len = 8 ∧ bound = 1000) ∨ (len = 1 ∧ bound = 10000)) (hr : SomeRead len q o n) :
    eventLegal { call := .rxReadSome len bound, outcome := o } := by
  refine ⟨hb, ?_⟩
  cases hr with
  | bytes k hk => exact .inr (.inr ⟨_, rfl, (List.length_take_le _ _).trans hk⟩)
  | timeout => exact .inl rfl
  | fail => exact .inr (.inl rfl)

theorem PhaseOutcome.history (h : PhaseOutcome Config.owbt s t) (ht : txbufEncodes s)
    (hi : ∀ e ∈ s.events, eventLegal e) : ∀ e ∈ t.events, eventLegal e := by
  cases h with
  | idle | writeWaits | receiveWaits => exact (takeMove_events s).symm ▸ hi
  | classified | encoded | decoded => exact hi
  | rateSet hp => cases hp <;> exact eventLegal_logEvent hi ⟨nofun, .inl rfl⟩
  | rateRejected hp => cases hp <;> exact eventLegal_logEvent hi ⟨nofun, .inr rfl⟩
  | written hp => exact eventLegal_logEvent hi ⟨hp.chars ht, .inl rfl⟩
  | writeFailed hp => exact eventLegal_logEvent hi ⟨hp.chars ht, .inr rfl⟩
  | drainLoops hp hr | drainEnds hp hr => exact eventLegal_logEvent hi (eventLegal_someRead (.inl ⟨rfl, rfl⟩) hr)
  | waited => exact eventLegal_logEvent (k := .wait 2000) hi ⟨rfl, rfl⟩
  | sampled hp hr => exact eventLegal_logEvent hi (eventLegal_someRead (.inr ⟨rfl, rfl⟩) hr)
  | received hp hl => exact eventLegal_logEvent hi ⟨rfl, .inr ⟨_, rfl, List.length_take_of_le hl⟩⟩
  | receiveFailed => exact eventLegal_logEvent hi ⟨rfl, .inl rfl⟩
  | receiveTimedOut hp hm hc => exact absurd rfl hc

/-! ### The rates -/

/-- A phase of a bus reset leaves the rates as they are, or makes one slow or fast in the order of the sequence. -/
theorem PhaseOutcome.rates {c : Cfg} (h : PhaseOutcome c s t) (hr : ratesFollowPhase s) : ratesFollowPhase t := by
  obtain ⟨hslowRx, hslow, hfastRx, hclassify⟩ := hr
  cases h with
  | idle hp | receiveWaits hp => simp [ratesFollowPhase, slowPhase, hp]
  | rateSet hp =>
    cases hp with
    | slowTx hp => simp [ratesFollowPhase, slowPhase]
    | slowRx hp => simp [ratesFollowPhase, slowPhase, hslowRx hp]
    | fastTx hp => simp [ratesFollowPhase, slowPhase, hslow (by rw [hp]; rfl)]
    | fastRx hp => simp [ratesFollowPhase, slowPhase, hfastRx hp]
  | rateRejected | writeFailed | receiveFailed | receiveTimedOut => simp [ratesFollowPhase, slowPhase]
  | written hp =>
    cases hp with
    | pulse hp => simpa [ratesFollowPhase, slowPhase] using hslow (by rw [hp]; rfl)
    | exchange hp => simp [ratesFollowPhase, slowPhase]
  | writeWaits hp =>
    cases hp with
    | pulse hp => simpa [ratesFollowPhase, slowPhase, hp] using hslow (by rw [hp]; rfl)
    | exchange hp => simp [ratesFollowPhase, slowPhase, hp]
  | drainLoops hp | drainEnds hp | waited hp | sampled hp =>
    simpa [ratesFollowPhase, slowPhase] using hslow (by rw [hp]; rfl)
  | classified | encoded | received | decoded => simp [ratesFollowPhase, slowPhase]

/-! ### The transmit alphabet -/

theorem inAlphabet_of_slotChar {b : Byte} (h : b = 0x00 ∨ b = 0xFF) : inAlphabet b = true := by
  rcases h with rfl | rfl <;> rfl

theorem slotChar_of_mem_encByte {b x : Byte} (h : x ∈ (encByte Config.owbt b).toList) : x = 0x00 ∨ x = 0xFF := by
  obtain ⟨v, rfl⟩ := mem_encByte_toList h
  exact encBit_owbt_eq_zero_or_ones v

/-- The zeros of log entry 3. -/
theorem slotChar_of_mem_reset_txbuf : ∀ b ∈ State.reset.txbuf.toList, b = 0xFF ∨ b = 0x00 := by decide

/-- Every character of an outstanding write is of the alphabet. -/
theorem inAlphabet_of_outstanding {v : List Byte} (hc : outstandingCall Config.owbt s = some (.memWrite v))
    (ht : ∀ b ∈ s.txbuf.toList, b = 0xFF ∨ b = 0x00) : ∀ b ∈ v, inAlphabet b = true := by
  obtain ⟨next, hp⟩ := outstandingCall_memWrite hc
  cases hp with
  | pulse => simp only [List.mem_singleton, forall_eq]; rfl
  | exchange => exact fun b hb => inAlphabet_of_slotChar (ht b hb).symm

theorem inAlphabet_of_append {xs : List SentChar} {v : List Byte} {r : Rate} (n : Nat)
    (hx : ∀ x ∈ xs, inAlphabet x.char = true) (hv : ∀ b ∈ v, inAlphabet b = true) :
    ∀ x ∈ xs ++ (v.take n).map (fun b => { char := b, rate := r : SentChar }), inAlphabet x.char = true := by
  intro x h
  rcases List.mem_append.1 h with h | h
  · exact hx x h
  · obtain ⟨b, hb, rfl⟩ := List.mem_map.1 h
    exact hv b (List.mem_of_mem_take hb)

/-- `TXBUF` is written in `P_XCH_ENCODE` alone, with the characters of the operand. -/
theorem PhaseOutcome.txbuf {c : Cfg} (h : PhaseOutcome c s t) : t.txbuf = s.txbuf ∨ t.txbuf = encByte c s.operand := by
  cases h with
  | encoded => exact .inr rfl
  | _ => exact .inl (by simp)

theorem PhaseOutcome.alphabet (h : PhaseOutcome Config.owbt s t) (hi : alphabetClosed s) : alphabetClosed t := by
  obtain ⟨hstream, htxbuf⟩ := hi
  refine ⟨?_, ?_⟩
  · rcases h.txStream with ⟨v, n, hc, ht, -⟩ | ⟨-, ht⟩ <;> rw [ht]
    · exact inAlphabet_of_append n hstream (inAlphabet_of_outstanding hc htxbuf)
    · exact hstream
  · rcases h.txbuf with ht | ht <;> rw [ht]
    · exact htxbuf
    · exact fun b hb => (slotChar_of_mem_encByte hb).symm

/-- From the encoding to the end of the exchange `OPERAND` and `TXBUF` stay. -/
theorem PhaseOutcome.txbufEncodes (h : PhaseOutcome Config.owbt s t) (hi : txbufEncodes s) : txbufEncodes t := by
  intro hp
  cases h with
  | encoded => rfl
  | written hw =>
    cases hw with
    | pulse => simp at hp
    | exchange hx => simpa using hi (.inl hx)
  | writeWaits hw =>
    cases hw with
    | pulse hx => simp [hx] at hp
    | exchange hx => simpa using hi (.inl hx)
  | received hx | receiveWaits hx => simpa using hi (.inr (.inl hx))
  | rateSet hr => cases hr <;> simp at hp
  | idle hx => simp [hx] at hp
  | rateRejected | writeFailed | drainLoops | drainEnds | waited | sampled | classified | receiveFailed
    | receiveTimedOut | decoded => simp at hp

/-! ### The response port and the drain buffer -/

theorem PhaseOutcome.responsesLegal {c : Cfg} (h : PhaseOutcome c s t) (hi : responsesLegal s) : responsesLegal t := by
  obtain ⟨hpast, hport⟩ := hi
  rcases h.response with ⟨h1, h2, -⟩ | ⟨w, hw, -, h1, h2⟩
  · exact ⟨h1 ▸ hpast, h2 ▸ hport⟩
  · refine ⟨fun x hx => ?_, fun x hx => ?_⟩
    · rw [h1, List.mem_append, List.mem_singleton] at hx
      rcases hx with hx | rfl
      · exact hpast x hx
      · exact hw
    · rw [h2, Option.toList_some, List.mem_singleton] at hx
      exact hx ▸ hw

theorem PhaseOutcome.silentWhileBusy {c : Cfg} (h : PhaseOutcome c s t) (hi : silentWhileBusy s) :
    silentWhileBusy t := by
  intro hp
  rcases h.response with ⟨-, hport, -⟩ | ⟨w, -, hidle, -⟩
  · rw [hport]
    refine hi fun hs => hp ?_
    simpa [hs, Machine.mayFollow] using h.mayFollow
  · exact absurd hidle hp

/-- A drain read delivers at most the length of the buffer, and replaces as many bytes of it. -/
theorem PhaseOutcome.drainbufSized (h : PhaseOutcome Config.owbt s t) (hi : drainbufSized s) : drainbufSized t := by
  have hlen : s.drainbuf.length = Config.owbt.drainBufLen := hi
  cases h with
  | drainLoops hp hr =>
    obtain rfl := hr.eq_take_of_bytes
    have hk := hr.le
    simp only [Machine.drainbufSized, goto_drainbuf, fillDrainbuf_drainbuf, logEvent_drainbuf, dropRx_drainbuf,
      takeMove_drainbuf, List.length_append, List.length_take, List.length_drop, hlen]
    omega
  | _ => simpa [Machine.drainbufSized] using hlen

/-! ### The invariant -/

theorem PhaseOutcome.inv (h : PhaseOutcome Config.owbt s t) (hi : Inv s) : Inv t where
  history := h.history hi.txbuf hi.history
  rates := h.rates hi.rates
  alphabet := h.alphabet hi.alphabet
  responses := h.responsesLegal hi.responses
  drainbuf := h.drainbufSized hi.drainbuf
  silent := h.silentWhileBusy hi.silent
  txbuf := h.txbufEncodes hi.txbuf

/-- A block reset leaves `IDLE`, a silent response port and the buffers of the reset state; a write it cuts has sent some
of its characters. -/
theorem inv_blockReset (n : Nat) (hi : Inv s) : Inv (blockReset (cutCall Config.owbt n (dropInput s))) where
  history := by simpa using hi.history
  rates := ⟨nofun, nofun, nofun, nofun⟩
  alphabet := by
    refine ⟨?_, slotChar_of_mem_reset_txbuf⟩
    rcases cutCall_cases Config.owbt n (dropInput s) with ⟨v, hc, h⟩ | ⟨-, h⟩ <;> rw [blockReset_txStream, h]
    · exact inAlphabet_of_append n hi.alphabet.1 (inAlphabet_of_outstanding hc hi.alphabet.2)
    · exact hi.alphabet.1
  responses := ⟨by simpa using hi.responses.1, nofun⟩
  drainbuf := rfl
  silent := fun _ => rfl
  txbuf := nofun

/-- Accepting a command clears the response port and leads to a phase before which no rate is set and nothing encoded. -/
theorem inv_exec {i : Instr} (hp : s.phase = .idle) (he : exec i s = .next t) (hi : Inv s) : Inv t := by
  obtain ⟨history, rates, alphabet, responses, drainbuf, silent, txbuf⟩ := hi
  rcases exec_idle hp he with rfl | ⟨v, rfl⟩
  · exact ⟨history, ⟨nofun, nofun, nofun, nofun⟩, alphabet, ⟨responses.1, nofun⟩, drainbuf, fun _ => rfl, nofun⟩
  · exact ⟨history, ⟨nofun, nofun, nofun, nofun⟩, alphabet, ⟨responses.1, nofun⟩, drainbuf, fun _ => rfl, nofun⟩

theorem inv_takeOffer (hi : Inv s) : Inv (takeOffer s) :=
  ⟨hi.history, hi.rates, hi.alphabet, hi.responses, hi.drainbuf, hi.silent, hi.txbuf⟩

/-- Settles O52: the block reset, the step of the phase and the acceptance of a command. -/
theorem stepKeepsInvariant : Obligations.StepKeepsInvariant := by
  intro s t hi hs
  rcases step_cases hs with ⟨-, rfl⟩ | ⟨-, -, rfl⟩ | ⟨w, i, -, hf, -, he⟩
  · exact inv_blockReset _ hi
  · exact (phaseStep_outcome _ s).inv hi
  · exact inv_exec (s := takeOffer s) (fetchWord_some hf).1 he (inv_takeOffer hi)

/-- Settles O53: nothing has been made, sent or answered, and the buffers are the zeros of log entry 3. -/
theorem invariantAtReset : Obligations.InvariantAtReset where
  history := nofun
  rates := ⟨nofun, nofun, nofun, nofun⟩
  alphabet := ⟨nofun, slotChar_of_mem_reset_txbuf⟩
  responses := ⟨nofun, nofun⟩
  drainbuf := rfl
  silent := fun _ => rfl
  txbuf := nofun

/-- Settles O54: the rates of the invariant at the presence decision, which responds `OK`. -/
theorem okResetLeavesFastRates : Obligations.OkResetLeavesFastRates := by
  intro s hi hdue hp
  obtain ⟨-, -, -, hrates⟩ := hi.rates
  obtain ⟨htx, hrx⟩ := hrates hp
  have hstep := step_of_busy (resetDue_eq_false hdue) (by rw [hp]; nofun)
  rw [phaseStep_of_rstClassify hp] at hstep
  exact ⟨_, hstep, rfl, htx, hrx, _, rfl, statusField_responseWord ..⟩

end Sys2Proof.Machine
end

section
/-! SUPPORT. What a step does not read: an update of the state that the named operations neither read nor write commutes
with the step of a phase, and with the step of the machine. Such are the history, the host's words while the block is
busy, and the exchange's buffers during a bus reset. -/

namespace Sys2Proof.Machine

/-! ### Updates that no operation sees -/

/-- The update `f` commutes with every operation of a bus reset, and none of them reads what it changes. -/
structure Transparent (f : State → State) : Prop where
  phase : ∀ s, (f s).phase = s.phase
  resp : ∀ s, (f s).resp = s.resp
  rxq : ∀ s, (f s).rxq = s.rxq
  inputs : ∀ s, (f s).inputs = s.inputs
  freeMoves : ∀ s, (f s).freeMoves = s.freeMoves
  takeMove : ∀ s, takeMove (f s) = f (takeMove s)
  goto : ∀ p s, goto p (f s) = f (goto p s)
  logEvent : ∀ k o s, logEvent k o (f s) = f (logEvent k o s)
  respond : ∀ st p d s, respond st p d (f s) = f (respond st p d s)
  withRate : ∀ k r s, withRate k r (f s) = f (withRate k r s)
  transmit : ∀ v s, transmit v (f s) = f (transmit v s)
  dropRx : ∀ n s, dropRx n (f s) = f (dropRx n s)
  fillDrainbuf : ∀ bs s, fillDrainbuf bs (f s) = f (fillDrainbuf bs s)
  setResp : ∀ r s, setResp r (f s) = f (setResp r s)

/-- So it does with the operations of a byte exchange and of a block reset. -/
structure FullyTransparent (f : State → State) : Prop extends Transparent f where
  operand : ∀ s, (f s).operand = s.operand
  txbuf : ∀ s, (f s).txbuf = s.txbuf
  rxbuf : ∀ s, (f s).rxbuf = s.rxbuf
  setTxbuf : ∀ v s, setTxbuf v (f s) = f (setTxbuf v s)
  setRxbuf : ∀ v s, setRxbuf v (f s) = f (setRxbuf v s)
  dropInput : ∀ s, dropInput (f s) = f (dropInput s)
  blockReset : ∀ s, blockReset (f s) = f (blockReset s)

/-- What a phase makes of a rate change that has returned. -/
def afterRate (next : Phase) : Ack × State → State
  | (.ok, t) => goto next t
  | (.fail, t) => raise .configurationFailed t

/-- What a phase makes of a write in `s`, returned or not. -/
def afterWrite (next : Phase) (s : State) : Option (Ack × State) → State
  | some (.ok, t) => goto next t
  | some (.fail, t) => raise .transmitFailed t
  | none => takeMove s

theorem rstSlowTx_eq (s : State) :
    rstSlowTx s = afterRate .rstSlowRx (setRate .tx .slow (nextMove s) (takeMove s)) := rfl
theorem rstSlowRx_eq (s : State) :
    rstSlowRx s = afterRate .rstDrain (setRate .rx .slow (nextMove s) (takeMove s)) := rfl
theorem rstFastTx_eq (s : State) :
    rstFastTx s = afterRate .rstFastRx (setRate .tx .fast (nextMove s) (takeMove s)) := rfl
theorem rstFastRx_eq (s : State) :
    rstFastRx s = afterRate .rstClassify (setRate .rx .fast (nextMove s) (takeMove s)) := rfl
theorem rstPulse_eq (c : Cfg) (s : State) :
    rstPulse c s = afterWrite .rstWait s (memWrite [c.resetChar] (nextMove s) (takeMove s)) := rfl
theorem xchTx_eq (s : State) :
    xchTx s = afterWrite .xchRx s (memWrite s.txbuf.toList (nextMove s) (takeMove s)) := rfl

variable {f : State → State}

/-! ### The primitives -/

namespace Transparent

variable (hf : Transparent f) (c : Cfg) (s : State)
include hf

theorem raise (st : Status) : Machine.raise st (f s) = f (Machine.raise st s) := hf.respond st false 0x00#8 s

theorem wait (n : Micros) : Machine.wait n (f s) = f (Machine.wait n s) := hf.logEvent (.wait n) .ok s

theorem nextMove : nextMove (f s) = nextMove s := by
  unfold Machine.nextMove
  rw [hf.inputs, hf.freeMoves]

theorem setRate (k : Cap) (r : Rate) (m : EnvMove) :
    Machine.setRate k r m (f s) = (Machine.setRate k r m s).map id f := by
  unfold Machine.setRate
  cases m.setRate <;> simp only [hf.withRate, hf.logEvent, Prod.map_apply, id]

theorem memWrite (v : List Byte) (m : EnvMove) :
    Machine.memWrite v m (f s) = (Machine.memWrite v m s).map (Prod.map id f) := by
  unfold Machine.memWrite
  cases m.write <;> simp only [hf.transmit, hf.logEvent, Option.map_some, Option.map_none, Prod.map_apply, id]

theorem rxReadSome (len : Nat) (bound : Micros) (m : EnvMove) :
    Machine.rxReadSome len bound m (f s) = (Machine.rxReadSome len bound m s).map id f := by
  unfold Machine.rxReadSome
  cases m.readSome <;> simp only [hf.rxq, hf.dropRx, hf.logEvent, Prod.map_apply, id]

theorem readArrived (n : Nat) :
    Machine.readArrived n (f s) = (Machine.readArrived n s).map (Prod.map id f) := by
  unfold Machine.readArrived
  rw [hf.rxq, hf.dropRx, hf.logEvent, apply_ite (Option.map _)]
  rfl

theorem memRead (n : Nat) (m : EnvMove) :
    Machine.memRead c n m (f s) = (Machine.memRead c n m s).map (Prod.map id f) := by
  unfold Machine.memRead
  cases m.readExact with
  | arrive => exact hf.readArrived s n
  | fail k => simp only [hf.dropRx, hf.logEvent, Option.map_some, Prod.map_apply, id]
  | timeout k =>
    simp only [hf.rxq, hf.readArrived, hf.dropRx, hf.logEvent, apply_ite (Option.map _), Option.map_some,
      Prod.map_apply, id]

/-! ### The phases of a bus reset -/

theorem afterRate (next : Phase) (x : Ack × State) :
    Machine.afterRate next (x.map id f) = f (Machine.afterRate next x) := by
  obtain ⟨o, t⟩ := x
  cases o with
  | ok => exact hf.goto next t
  | fail => exact hf.raise t .configurationFailed

theorem afterWrite (next : Phase) (x : Option (Ack × State)) :
    Machine.afterWrite next (f s) (x.map (Prod.map id f)) = f (Machine.afterWrite next s x) := by
  match x with
  | some (.ok, t) => exact hf.goto next t
  | some (.fail, t) => exact hf.raise t .transmitFailed
  | none => exact hf.takeMove s

theorem rstDrain : rstDrain c (f s) = f (rstDrain c s) := by
  unfold Machine.rstDrain
  rw [hf.nextMove, hf.takeMove, hf.rxReadSome]
  obtain ⟨o, t⟩ := Machine.rxReadSome c.drainBufLen c.tDrain (Machine.nextMove s) (Machine.takeMove s)
  match o with
  | .bytes (b :: bs) => exact (congrArg _ (hf.fillDrainbuf (b :: bs) t)).trans (hf.goto _ _)
  | .bytes [] | .timeout | .fail => exact hf.goto _ t

theorem rstSample : rstSample c (f s) = f (rstSample c s) := by
  unfold Machine.rstSample
  rw [hf.nextMove, hf.takeMove, hf.rxReadSome]
  obtain ⟨o, t⟩ := Machine.rxReadSome 1 c.tPresence (Machine.nextMove s) (Machine.takeMove s)
  cases o <;> exact (congrArg _ (hf.setResp _ t)).trans (hf.goto _ _)

theorem rstWait : rstWait c (f s) = f (rstWait c s) := by
  rw [Machine.rstWait, Machine.rstWait, hf.takeMove, hf.wait, hf.goto]

theorem rstClassify : rstClassify c (f s) = f (rstClassify c s) := by
  rw [Machine.rstClassify, Machine.rstClassify, hf.resp, hf.respond]

/-- A bus reset goes the same way whatever the update changes. -/
theorem phaseStep_of_reset (hp : s.phase ∈ [.rstSlowTx, .rstSlowRx, .rstDrain, .rstPulse, .rstWait, .rstSample,
    .rstFastTx, .rstFastRx, .rstClassify]) : phaseStep c (f s) = f (phaseStep c s) := by
  cases hq : s.phase <;> simp only [phaseStep, hf.phase, hq]
  case rstSlowTx => rw [rstSlowTx_eq, rstSlowTx_eq, hf.nextMove, hf.takeMove, hf.setRate, hf.afterRate]
  case rstSlowRx => rw [rstSlowRx_eq, rstSlowRx_eq, hf.nextMove, hf.takeMove, hf.setRate, hf.afterRate]
  case rstDrain => exact hf.rstDrain c s
  case rstPulse => rw [rstPulse_eq, rstPulse_eq, hf.nextMove, hf.takeMove, hf.memWrite, hf.afterWrite]
  case rstWait => exact hf.rstWait c s
  case rstSample => exact hf.rstSample c s
  case rstFastTx => rw [rstFastTx_eq, rstFastTx_eq, hf.nextMove, hf.takeMove, hf.setRate, hf.afterRate]
  case rstFastRx => rw [rstFastRx_eq, rstFastRx_eq, hf.nextMove, hf.takeMove, hf.setRate, hf.afterRate]
  case rstClassify => exact hf.rstClassify c s
  all_goals simp [hq] at hp

end Transparent

/-! ### Every phase, and the step -/

namespace FullyTransparent

variable (hf : FullyTransparent f) (c : Cfg) (s : State)
include hf

theorem xchEncode : xchEncode c (f s) = f (xchEncode c s) := by
  rw [Machine.xchEncode, Machine.xchEncode, hf.operand, hf.setTxbuf, hf.goto]

theorem xchRx : xchRx c (f s) = f (xchRx c s) := by
  unfold Machine.xchRx
  rw [hf.nextMove, hf.takeMove, hf.memRead]
  match Machine.memRead c slots (Machine.nextMove s) (Machine.takeMove s) with
  | some (.bytes bs, t) => exact (congrArg _ (hf.setRxbuf _ t)).trans (hf.goto _ _)
  | some (.fail, t) => exact hf.raise t _
  | some (.timeout, t) => exact hf.raise t _
  | none => rfl

theorem xchDecode : xchDecode c (f s) = f (xchDecode c s) := by
  rw [Machine.xchDecode, Machine.xchDecode, hf.rxbuf, hf.respond]

/-- Every phase goes the same way whatever the update changes. -/
theorem phaseStep : phaseStep c (f s) = f (phaseStep c s) := by
  cases hq : s.phase
  case idle => simpa only [Machine.phaseStep, hf.phase, hq] using hf.takeMove s
  case xchEncode => simpa only [Machine.phaseStep, hf.phase, hq] using hf.xchEncode c s
  case xchTx =>
    simp only [Machine.phaseStep, hf.phase, hq]
    rw [xchTx_eq, xchTx_eq, hf.txbuf, hf.nextMove, hf.takeMove, hf.memWrite, hf.afterWrite]
  case xchRx => simpa only [Machine.phaseStep, hf.phase, hq] using hf.xchRx c s
  case xchDecode => simpa only [Machine.phaseStep, hf.phase, hq] using hf.xchDecode c s
  all_goals exact hf.phaseStep_of_reset c s (by simp [hq])

theorem outstandingCall : outstandingCall c (f s) = outstandingCall c s := by
  unfold Machine.outstandingCall
  rw [hf.phase, hf.txbuf]

theorem cutCall (n : Nat) : cutCall c n (f s) = f (cutCall c n s) := by
  unfold Machine.cutCall
  rw [hf.outstandingCall]
  split
  · exact hf.transmit _ s
  · rfl

theorem resetDue : resetDue (f s) = resetDue s := by
  unfold Machine.resetDue
  rw [hf.inputs]

theorem cutCount : cutCount (f s) = cutCount s := by
  unfold Machine.cutCount
  rw [hf.inputs]

/-- A block reset leaves the update as it was. -/
theorem step_of_reset (hr : Machine.resetDue s = true) {t : State} (h : step s = .next t) :
    step (f s) = .next (f t) := by
  rw [Machine.step_of_reset hr] at h
  cases h
  rw [Machine.step_of_reset (by rw [hf.resetDue, hr]), hf.cutCount, hf.dropInput, hf.cutCall, hf.blockReset]

/-- A step that takes no word goes the same way whatever the update changes. -/
theorem step_of_no_word {t : State} (hw : fetchWord s = none) (hw' : fetchWord (f s) = none) (h : step s = .next t) :
    step (f s) = .next (f t) := by
  cases hr : Machine.resetDue s with
  | true => exact hf.step_of_reset s hr h
  | false =>
    rw [Machine.step_of_no_word hr hw] at h
    cases h
    rw [Machine.step_of_no_word (by rw [hf.resetDue, hr]) hw', hf.phaseStep]

end FullyTransparent

/-! ### The host's words -/

/-- `s` with other words held by the host. -/
def withOffers (held : List CommandWord) (s : State) : State := { s with offers := held }

theorem withOffers_transparent (held : List CommandWord) : FullyTransparent (withOffers held) where
  phase _ := rfl
  resp _ := rfl
  rxq _ := rfl
  inputs _ := rfl
  freeMoves _ := rfl
  takeMove s := by
    unfold takeMove
    rw [show (withOffers held s).inputs = s.inputs from rfl]
    split <;> rfl
  goto _ _ := rfl
  logEvent _ _ _ := rfl
  respond _ _ _ _ := rfl
  withRate k _ _ := by cases k <;> rfl
  transmit _ _ := rfl
  dropRx _ _ := rfl
  fillDrainbuf _ _ := rfl
  setResp _ _ := rfl
  operand _ := rfl
  txbuf _ := rfl
  rxbuf _ := rfl
  setTxbuf _ _ := rfl
  setRxbuf _ _ := rfl
  dropInput _ := rfl
  blockReset _ := rfl

/-- Settles O19: a busy block takes no word, and no other operation reads or writes the host's words. -/
theorem busyIgnoresOffers : Obligations.BusyIgnoresOffers := by
  intro s t held hp hs
  have hstep (held : List CommandWord) : step { s with offers := held } = .next { t with offers := held } :=
    (withOffers_transparent held).step_of_no_word s (fetchWord_busy hp) (fetchWord_busy hp) hs
  have hsame : t = { t with offers := s.offers } := Host.Outcome.next.inj (hs.symm.trans (hstep s.offers))
  have hoffers := congrArg State.offers hsame
  exact ⟨hoffers, hstep held⟩

/-! ### The history -/

/-- `s` with an earlier history: what was made, answered and sent before. -/
def withPast (es : List Event) (rs : List ResponseWord) (xs : List SentChar) (s : State) : State :=
  { s with events := es ++ s.events, responses := rs ++ s.responses, txStream := xs ++ s.txStream }

/-- `s` at the beginning of its history. -/
def withoutPast (s : State) : State := { s with events := [], responses := [], txStream := [] }

theorem withPast_withoutPast (es : List Event) (rs : List ResponseWord) (xs : List SentChar) (s : State) :
    withPast es rs xs (withoutPast s) = { s with events := es, responses := rs, txStream := xs } := by
  simp [withPast, withoutPast]

theorem withPast_transparent (es : List Event) (rs : List ResponseWord) (xs : List SentChar) :
    FullyTransparent (withPast es rs xs) where
  phase _ := rfl
  resp _ := rfl
  rxq _ := rfl
  inputs _ := rfl
  freeMoves _ := rfl
  takeMove s := by
    unfold takeMove
    rw [show (withPast es rs xs s).inputs = s.inputs from rfl]
    split <;> rfl
  goto _ _ := rfl
  logEvent _ _ _ := by simp [withPast, logEvent]
  respond _ _ _ _ := by simp [withPast, respond]
  withRate k _ _ := by cases k <;> rfl
  transmit _ _ := by simp [withPast, transmit]
  dropRx _ _ := rfl
  fillDrainbuf _ _ := rfl
  setResp _ _ := rfl
  operand _ := rfl
  txbuf _ := rfl
  rxbuf _ := rfl
  setTxbuf _ _ := rfl
  setRxbuf _ _ := rfl
  dropInput _ := rfl
  blockReset _ := rfl

theorem exec_withPast (es : List Event) (rs : List ResponseWord) (xs : List SentChar) {i : Instr} {s t : State}
    (h : exec i s = .next t) : exec i (withPast es rs xs s) = .next (withPast es rs xs t) := by
  by_cases hp : s.phase = .idle
  · obtain ⟨hreset, hwrite, hread⟩ := acceptanceInIdle s hp
    obtain ⟨hreset', hwrite', hread'⟩ := acceptanceInIdle (withPast es rs xs s) hp
    cases i with
    | reset => cases hreset.symm.trans h; exact hreset'
    | writeReadByte d => cases (hwrite d).symm.trans h; exact hwrite' d
    | readByte => cases hread.symm.trans h; exact hread'
  · cases (exec_busy hp i).symm.trans h
    exact exec_busy (s := withPast es rs xs s) hp i

/-- A step adds to the history what it would have added at the beginning of it. -/
theorem step_withPast (es : List Event) (rs : List ResponseWord) (xs : List SentChar) {s t : State}
    (h : step s = .next t) : step (withPast es rs xs s) = .next (withPast es rs xs t) := by
  have hf := withPast_transparent es rs xs
  rcases step_cases h with ⟨hr, -⟩ | ⟨-, hw, -⟩ | ⟨w, i, hr, hw, hd, he⟩
  · exact hf.step_of_reset s hr h
  · exact hf.step_of_no_word s hw hw h
  · exact (step_of_decode (s := withPast es rs xs s) hr hw hd).trans (exec_withPast es rs xs he)

/-- Whether there is a next state does not depend on the history. -/
theorem exists_step_withoutPast {s t : State} (h : step s = .next t) : ∃ u, step (withoutPast s) = .next u := by
  rcases step_cases h with ⟨hr, -⟩ | ⟨hr, hw, -⟩ | ⟨w, i, hr, hw, hd, -⟩
  · exact ⟨_, step_of_reset hr⟩
  · exact ⟨_, step_of_no_word hr hw⟩
  · exact (step_of_decode (s := withoutPast s) hr hw hd) ▸ exists_exec_eq_next i _

/-- Settles O21: the entries added are those of the step taken at the beginning of the history. -/
theorem historyNeverRead : Obligations.HistoryNeverRead := by
  intro s t es rs xs h
  obtain ⟨u, hu⟩ := exists_step_withoutPast h
  have hstep (es : List Event) (rs : List ResponseWord) (xs : List SentChar) :
      step { s with events := es, responses := rs, txStream := xs } = .next (withPast es rs xs u) :=
    withPast_withoutPast es rs xs s ▸ step_withPast es rs xs hu
  obtain rfl : t = withPast s.events s.responses s.txStream u := Host.Outcome.next.inj (h.symm.trans (hstep ..))
  exact ⟨u.events, u.responses, u.txStream, rfl, rfl, rfl, hstep es rs xs⟩

/-! ### The frames of the two commands -/

/-- `s` with other buffers of the exchange. -/
def withExchange (v : Byte) (x y : Chars) (s : State) : State := { s with operand := v, txbuf := x, rxbuf := y }

theorem withExchange_transparent (v : Byte) (x y : Chars) : Transparent (withExchange v x y) where
  phase _ := rfl
  resp _ := rfl
  rxq _ := rfl
  inputs _ := rfl
  freeMoves _ := rfl
  takeMove s := by
    unfold takeMove
    rw [show (withExchange v x y s).inputs = s.inputs from rfl]
    split <;> rfl
  goto _ _ := rfl
  logEvent _ _ _ := rfl
  respond _ _ _ _ := rfl
  withRate k _ _ := by cases k <;> rfl
  transmit _ _ := rfl
  dropRx _ _ := rfl
  fillDrainbuf _ _ := rfl
  setResp _ _ := rfl

theorem phaseStep_offers (c : Cfg) (s : State) : (phaseStep c s).offers = s.offers := by
  have h := congrArg State.offers ((withOffers_transparent s.offers).phaseStep c s)
  exact h

/-- The transmit rate is set in two phases, and the receive rate in two others. -/
theorem PhaseOutcome.rate_frame {c : Cfg} {s t : State} (h : PhaseOutcome c s t) :
    (s.phase ≠ .rstSlowTx ∧ s.phase ≠ .rstFastTx → t.txRate = s.txRate) ∧
    (s.phase ≠ .rstSlowRx ∧ s.phase ≠ .rstFastRx → t.rxRate = s.rxRate) := by
  cases h with
  | rateSet hp | rateRejected hp =>
    cases hp with
    | slowTx hp | fastTx hp => exact ⟨fun hne => by simp [hp] at hne, fun _ => by simp⟩
    | slowRx hp | fastRx hp => exact ⟨fun _ => by simp, fun hne => by simp [hp] at hne⟩
  | _ => simp

/-- Each of the block's five registers is written in one phase. -/
theorem PhaseOutcome.register_frame {c : Cfg} {s t : State} (h : PhaseOutcome c s t) :
    t.operand = s.operand ∧ (s.phase ≠ .xchEncode → t.txbuf = s.txbuf) ∧ (s.phase ≠ .xchRx → t.rxbuf = s.rxbuf) ∧
    (s.phase ≠ .rstSample → t.resp = s.resp) ∧ (s.phase ≠ .rstDrain → t.drainbuf = s.drainbuf) := by
  cases h with
  | drainLoops hp | sampled hp | encoded hp | received hp => simp [hp]
  | _ => simp

/-- Settles O47: the registers and rates that have their own phases, and the exchange's buffers, which are not read. -/
theorem resetPhasesFrame : Obligations.ResetPhasesFrame := by
  intro c s hp
  have h := phaseStep_outcome c s
  obtain ⟨htx, hrx⟩ := h.rate_frame
  obtain ⟨hoperand, htxbuf, hrxbuf, hresp, hdrain⟩ := h.register_frame
  exact ⟨hoperand, htxbuf fun hx => by simp [hx] at hp, hrxbuf fun hx => by simp [hx] at hp, phaseStep_offers c s,
    htx, hrx, hresp, hdrain, fun v x y => (withExchange_transparent v x y).phaseStep_of_reset c s hp⟩

/-- Outside the drain, the presence read and `P_XCH_RX` no byte leaves the queue. -/
theorem PhaseOutcome.rxq_of_no_read {c : Cfg} {s t : State} (h : PhaseOutcome c s t)
    (hd : s.phase ≠ .rstDrain) (hs : s.phase ≠ .rstSample) (hx : s.phase ≠ .xchRx) : ∃ bs, t.rxq = s.rxq ++ bs := by
  cases h with
  | drainLoops hp | drainEnds hp => exact absurd hp hd
  | sampled hp => exact absurd hp hs
  | received hp | receiveFailed hp | receiveTimedOut hp => exact absurd hp hx
  | classified | encoded | decoded => exact ⟨[], (List.append_nil _).symm⟩
  | _ => exact ⟨(nextMove s).arrivals, by simp⟩

/-- Settles O48: the registers, the rates and the queue, outside the phases of a bus reset. -/
theorem exchangePhasesFrame : Obligations.ExchangePhasesFrame := by
  intro c s hp
  have h := phaseStep_outcome c s
  have hne (q : Phase) (hq : q ∉ [Phase.xchEncode, .xchTx, .xchRx, .xchDecode]) : s.phase ≠ q :=
    fun he => hq (he ▸ hp)
  obtain ⟨htx, hrx⟩ := h.rate_frame
  obtain ⟨hoperand, htxbuf, hrxbuf, hresp, hdrain⟩ := h.register_frame
  exact ⟨htx ⟨hne _ (by decide), hne _ (by decide)⟩, hrx ⟨hne _ (by decide), hne _ (by decide)⟩,
    hresp (hne _ (by decide)), hoperand, hdrain (hne _ (by decide)), phaseStep_offers c s, htxbuf, hrxbuf,
    h.rxq_of_no_read (hne _ (by decide)) (hne _ (by decide))⟩

end Sys2Proof.Machine
end

section
/-! SUPPORT. Runs in which the environment's moves are written down in the state: what is left to run after the step of
each phase, and the two commands run to their end (41_reset_sequencer.md section 3, 42_byte_exchange.md section 3). -/

namespace Sys2Proof.Machine

variable {s : State} {m : EnvMove} {rest : List EnvInput} {n : Nat} {o : Host.Outcome State Fault Refusal}

/-! ### One step -/

/-- `s` after the move `m`, which was the first input and before which `rest` stood. -/
def moved (m : EnvMove) (rest : List EnvInput) (s : State) : State :=
  { s with rxq := s.rxq ++ m.arrivals, inputs := rest }

theorem takeMove_eq_moved (hin : s.inputs = .move m :: rest) : takeMove s = moved m rest s :=
  takeMove_of_inputs hin

theorem resetDue_of_move (hin : s.inputs = .move m :: rest) : resetDue s = false := by
  rw [resetDue, hin]

theorem run_of_step {t : State} (hs : step s = .next t) (h : run n t = o) : run (n + 1) s = o :=
  (run_succ_of_next hs).trans h

/-- In a busy phase the step is that of the phase. -/
theorem step_phase {t : State} (hdue : resetDue s = false) (hp : s.phase ≠ .idle)
    (ht : phaseStep Config.owbt s = t) : step s = .next t :=
  (step_of_busy hdue hp).trans (congrArg _ ht)

theorem RatePhase.phase_ne_idle {k : Cap} {r : Rate} {next : Phase} (hp : RatePhase s.phase k r next) :
    s.phase ≠ .idle := by
  cases hp with
  | slowTx hp | slowRx hp | fastTx hp | fastRx hp => rw [hp]; nofun

theorem step_rate {k : Cap} {r : Rate} {next : Phase} (hp : RatePhase s.phase k r next)
    (hin : s.inputs = .move m :: rest) (hm : m.setRate = .ok) :
    step s = .next (goto next (logEvent (.setRate k r) .ok (withRate k r (moved m rest s)))) :=
  step_phase (resetDue_of_move hin) hp.phase_ne_idle
    (by rw [phaseStep_of_rate_ok hp (by rwa [nextMove_of_inputs hin]), takeMove_eq_moved hin])

theorem step_write {v : List Byte} {next : Phase} (hp : WritePhase Config.owbt s v next)
    (hin : s.inputs = .move m :: rest) (hm : m.write = .ok) :
    step s = .next (goto next (logEvent (.memWrite v) .ok (transmit v (moved m rest s)))) :=
  step_phase (resetDue_of_move hin) hp.phase_ne_idle
    (by rw [phaseStep_of_write_ok hp (by rwa [nextMove_of_inputs hin]), takeMove_eq_moved hin])

theorem step_wait (hp : s.phase = .rstWait) (hin : s.inputs = .move m :: rest) :
    step s = .next (goto .rstSample (wait 2000 (moved m rest s))) :=
  step_phase (resetDue_of_move hin) (by rw [hp]; nofun)
    (by rw [phaseStep_of_rstWait hp, rstWait, takeMove_eq_moved hin]; rfl)

theorem step_receive (hp : s.phase = .xchRx) (hin : s.inputs = .move m :: rest) (hm : ∀ k, m.readExact ≠ .fail k)
    {q : List Byte} (hq : q = s.rxq ++ m.arrivals) (hl : 8 ≤ q.length) :
    step s = .next (goto .xchDecode (setRxbuf (charsOf (q.take 8))
      (logEvent (.memRead 8) (.bytes (q.take 8)) (dropRx 8 (moved m rest s))))) := by
  have hrxq : (takeMove s).rxq = q := by rw [takeMove_of_inputs hin, hq]
  refine step_phase (resetDue_of_move hin) (by rw [hp]; nofun) ?_
  rw [phaseStep_of_received hp (by rwa [nextMove_of_inputs hin]) (by rwa [hrxq]), hrxq, takeMove_eq_moved hin]

theorem step_encode (hdue : resetDue s = false) (hp : s.phase = .xchEncode) :
    step s = .next (goto .xchTx (setTxbuf (encByte Config.owbt s.operand) s)) :=
  step_phase hdue (by rw [hp]; nofun) (phaseStep_of_xchEncode hp)

theorem step_decode (hdue : resetDue s = false) (hp : s.phase = .xchDecode) :
    step s = .next (respond .ok false (decByte Config.owbt s.rxbuf) s) :=
  step_phase hdue (by rw [hp]; nofun) (phaseStep_of_xchDecode hp)

theorem step_classify (hdue : resetDue s = false) (hp : s.phase = .rstClassify) :
    step s = .next (respond .ok (classify Config.owbt s.resp) 0x00#8 s) :=
  step_phase hdue (by rw [hp]; nofun) (phaseStep_of_rstClassify hp)

/-! ### A byte exchange -/

/-- From its first phase a byte exchange ends after four steps, when the write is sent and eight bytes are there. -/
theorem run_exchange {m1 m2 : EnvMove} {q : List Byte} (hp : s.phase = .xchEncode)
    (hin : s.inputs = .move m1 :: .move m2 :: rest) (hrest : ∀ k, rest.head? ≠ some (.blockReset k))
    (hwrite : m1.write = .ok) (hread : m2.readExact = .arrive) (hq : q = s.rxq ++ m1.arrivals ++ m2.arrivals)
    (hl : 8 ≤ q.length) :
    run 4 s = .next
      { s with
        phase := .idle
        txbuf := encByte Config.owbt s.operand
        rxbuf := charsOf (q.take 8)
        rxq := q.drop 8
        txStream := s.txStream ++ (encByte Config.owbt s.operand).toList.map fun x => { char := x, rate := s.txRate }
        inputs := rest
        response := some (responseWord .ok false (decByte Config.owbt (charsOf (q.take 8))))
        responses := s.responses ++ [responseWord .ok false (decByte Config.owbt (charsOf (q.take 8)))]
        events := s.events ++
          [{ call := .memWrite (encByte Config.owbt s.operand).toList, outcome := .ok },
            { call := .memRead 8, outcome := .bytes (q.take 8) }] } := by
  refine run_of_step (step_encode (resetDue_of_move hin) hp) ?_
  refine run_of_step (step_write (.exchange rfl) hin hwrite) ?_
  refine run_of_step (step_receive rfl rfl (by rw [hread]; nofun) hq hl) ?_
  refine run_of_step (step_decode (resetDue_eq_false hrest) rfl) ?_
  subst hq
  rw [List.append_cons s.events]
  rfl

/-- Settles O25: acceptance, then the four phases. -/
theorem writeReadByteCompletes : Obligations.WriteReadByteCompletes := by
  rintro s d m1 m2 rest q sent hp hin hrest hwrite hread hq hl rfl
  obtain ⟨-, hacc, -⟩ := acceptanceInIdle s hp
  refine ⟨_, hacc d, rfl, (run_exchange (s := { s with phase := .xchEncode, operand := d, response := none })
    rfl hin hrest hwrite hread hq hl).trans ?_⟩
  rw [← hp]

theorem encByte_owbt_ones : encByte Config.owbt 0xFF = Vector.replicate 8 0xFF := rfl

/-- Settles O26: the exchange of 0xFF, whose characters are all logical 1. -/
theorem readByteCompletes : Obligations.ReadByteCompletes := by
  intro s m1 m2 rest q hp hin hrest hwrite hread hq hl
  obtain ⟨-, -, hacc⟩ := acceptanceInIdle s hp
  refine ⟨_, hacc, rfl, (run_exchange (s := { s with phase := .xchEncode, operand := 0xFF, response := none })
    rfl hin hrest hwrite hread hq hl).trans ?_⟩
  rw [← hp, encByte_owbt_ones]
  rfl

/-! ### The reads of a bus reset -/

/-- The outcome with which an `RxReadSome` returns (R58). -/
def returned (len : Nat) (choice : ReadSomeChoice) (q : List Byte) : CallOutcome :=
  match choice with
  | .bytes _ => .bytes (delivered len choice q)
  | .timeout => .timeout
  | .fail _ => .fail

/-- The state that an `RxReadSome` leaves (R58). -/
def readSome (len : Nat) (bound : Micros) (m : EnvMove) (s : State) : State :=
  logEvent (.rxReadSome len bound) (returned len m.readSome s.rxq) { s with rxq := leftBy len m.readSome s.rxq }

theorem rxReadSome_snd (len : Nat) (bound : Micros) (m : EnvMove) (s : State) :
    (rxReadSome len bound m s).2 = readSome len bound m s := by
  unfold rxReadSome readSome returned delivered leftBy
  cases m.readSome <;> rfl

/-- A drain read that delivers comes back to the drain. -/
theorem rstDrain_of_delivered {c : Cfg} (h : delivered c.drainBufLen (nextMove s).readSome (takeMove s).rxq ≠ []) :
    rstDrain c s = goto .rstDrain (fillDrainbuf (delivered c.drainBufLen (nextMove s).readSome (takeMove s).rxq)
      (readSome c.drainBufLen c.tDrain (nextMove s) (takeMove s))) := by
  rw [← rxReadSome_snd]
  unfold rstDrain rxReadSome delivered at *
  cases hm : (nextMove s).readSome with
  | bytes n =>
    rw [hm] at h
    obtain ⟨b, bs, hb⟩ := List.exists_cons_of_ne_nil h
    simp only [hb]
  | timeout | fail n => simp [hm] at h

/-- One that delivers nothing leads on. -/
theorem rstDrain_of_not_delivered {c : Cfg}
    (h : delivered c.drainBufLen (nextMove s).readSome (takeMove s).rxq = []) :
    rstDrain c s = goto .rstPulse (readSome c.drainBufLen c.tDrain (nextMove s) (takeMove s)) := by
  rw [← rxReadSome_snd]
  unfold rstDrain rxReadSome delivered at *
  cases hm : (nextMove s).readSome with
  | bytes n =>
    rw [hm] at h
    simp only [h]
  | timeout | fail n => rfl

/-- The presence read puts what it delivers, if anything, into `RESP`. -/
theorem rstSample_eq (c : Cfg) (s : State) :
    rstSample c s = goto .rstFastTx (setResp (delivered 1 (nextMove s).readSome (takeMove s).rxq).head?
      (readSome 1 c.tPresence (nextMove s) (takeMove s))) := by
  rw [← rxReadSome_snd]
  unfold rstSample rxReadSome delivered
  cases (nextMove s).readSome <;> rfl

theorem step_drain {q : List Byte} (hp : s.phase = .rstDrain) (hin : s.inputs = .move m :: rest)
    (hq : q = s.rxq ++ m.arrivals) (hd : delivered 8 m.readSome q ≠ []) :
    step s = .next (goto .rstDrain (fillDrainbuf (delivered 8 m.readSome q) (readSome 8 1000 m (moved m rest s)))) := by
  subst hq
  refine step_phase (resetDue_of_move hin) (by rw [hp]; nofun) ?_
  rw [← takeMove_eq_moved hin, ← nextMove_of_inputs hin, ← takeMove_rxq] at *
  exact (phaseStep_of_rstDrain hp).trans (rstDrain_of_delivered hd)

theorem step_drain_end (hp : s.phase = .rstDrain) (hin : s.inputs = .move m :: rest)
    (hd : delivered 8 m.readSome (s.rxq ++ m.arrivals) = []) :
    step s = .next (goto .rstPulse (readSome 8 1000 m (moved m rest s))) := by
  refine step_phase (resetDue_of_move hin) (by rw [hp]; nofun) ?_
  rw [← takeMove_eq_moved hin, ← nextMove_of_inputs hin, ← takeMove_rxq] at *
  exact (phaseStep_of_rstDrain hp).trans (rstDrain_of_not_delivered hd)

theorem step_sample (hp : s.phase = .rstSample) (hin : s.inputs = .move m :: rest) :
    step s = .next (goto .rstFastTx (setResp (delivered 1 m.readSome (s.rxq ++ m.arrivals)).head?
      (readSome 1 10000 m (moved m rest s)))) := by
  refine step_phase (resetDue_of_move hin) (by rw [hp]; nofun) ?_
  rw [← takeMove_eq_moved hin, ← nextMove_of_inputs hin, ← takeMove_rxq] at *
  exact (phaseStep_of_rstSample hp).trans (rstSample_eq Config.owbt s)

/-! ### The drain -/

/-- The entries that the drain reads with the moves `ms` add to the history, from the queue `q`. -/
def drainEvents (q : List Byte) : List EnvMove → List Event
  | [] => []
  | m :: ms =>
    { call := .rxReadSome 8 1000, outcome := returned 8 m.readSome (q ++ m.arrivals) } ::
      drainEvents (leftBy 8 m.readSome (q ++ m.arrivals)) ms

theorem drainEvents_length (ms : List EnvMove) : ∀ q, (drainEvents q ms).length = ms.length := by
  induction ms with
  | nil => exact fun _ => rfl
  | cons m ms ih => exact fun q => congrArg (· + 1) (ih _)

/-- However many drain reads deliver, the block is still in the drain after them, and only `DRAINBUF`, the queue and the
history have moved on. -/
theorem run_drains (ds : List EnvMove) : ∀ {s : State} {q : List Byte}, s.phase = .rstDrain →
    s.inputs = ds.map .move ++ rest → drained Config.owbt s.rxq ds = some q →
    ∃ db, run ds.length s =
      .next { s with rxq := q, inputs := rest, drainbuf := db, events := s.events ++ drainEvents s.rxq ds } := by
  induction ds with
  | nil =>
    intro s q hp hin hq
    obtain rfl : s.rxq = q := by simpa [drained] using hq
    obtain rfl : s.inputs = rest := hin
    exact ⟨s.drainbuf, by rw [drainEvents, List.append_nil]; rfl⟩
  | cons m ds ih =>
    intro s q hp hin hq
    have hd : delivered 8 m.readSome (s.rxq ++ m.arrivals) ≠ [] := by
      intro hnil
      simp [drained, show Config.owbt.drainBufLen = 8 from rfl, hnil] at hq
    have hq' : drained Config.owbt (leftBy 8 m.readSome (s.rxq ++ m.arrivals)) ds = some q := by
      simpa [drained, show Config.owbt.drainBufLen = 8 from rfl, hd] using hq
    obtain ⟨db, hdb⟩ := ih (s := goto .rstDrain (fillDrainbuf (delivered 8 m.readSome (s.rxq ++ m.arrivals))
      (readSome 8 1000 m (moved m (ds.map .move ++ rest) s)))) rfl rfl hq'
    refine ⟨db, run_of_step (step_drain hp hin rfl hd) (hdb.trans ?_)⟩
    rw [drainEvents, List.append_cons s.events, ← hp]
    rfl

/-- Settles O44: after any number of drain reads that deliver. -/
theorem drainHasNoBound : Obligations.DrainHasNoBound := by
  intro s ds rest q hp hin hq
  obtain ⟨db, hrun⟩ := run_drains ds hp hin hq
  exact ⟨_, hrun, hp, rfl, rfl, rfl, by simp [drainEvents_length]⟩

/-! ### The bus reset -/

theorem run_add {t : State} : ∀ {a : Nat} {s : State}, run a s = .next t → ∀ b, run (a + b) s = run b t := by
  intro a
  induction a with
  | zero =>
    rintro s h b
    cases h
    rw [Nat.zero_add]
  | succ a ih =>
    intro s h b
    cases hs : step s with
    | next u =>
      rw [Nat.succ_add, run_succ_of_next hs]
      exact ih ((run_succ_of_next hs).symm.trans h) b
    | fault f => cases f
    | refused r => cases (run_succ_of_refused hs).symm.trans h

/-- From the drain read that delivers nothing the bus reset ends after seven steps, when its other calls succeed. -/
theorem run_reset_from_drain {m3 m4 m5 m6 m7 m8 : EnvMove} {q6 : List Byte} (hp : s.phase = .rstDrain)
    (hin : s.inputs = [m3, m4, m5, m6, m7, m8].map .move ++ rest) (hrest : ∀ k, rest.head? ≠ some (.blockReset k))
    (h3 : delivered 8 m3.readSome (s.rxq ++ m3.arrivals) = []) (h4 : m4.write = .ok)
    (hq6 : q6 = leftBy 8 m3.readSome (s.rxq ++ m3.arrivals) ++ m4.arrivals ++ m5.arrivals ++ m6.arrivals)
    (h7 : m7.setRate = .ok) (h8 : m8.setRate = .ok) :
    ∃ es, es.length = 6 ∧ run 7 s = .next
      { s with
        phase := .idle
        resp := (delivered 1 m6.readSome q6).head?
        txRate := .fast
        rxRate := .fast
        rxq := leftBy 1 m6.readSome q6 ++ m7.arrivals ++ m8.arrivals
        txStream := s.txStream ++ [{ char := 0xF0, rate := s.txRate }]
        inputs := rest
        response := some (responseWord .ok (classify Config.owbt (delivered 1 m6.readSome q6).head?) 0x00#8)
        responses := s.responses ++ [responseWord .ok (classify Config.owbt (delivered 1 m6.readSome q6).head?) 0x00#8]
        events := s.events ++ es } := by
  refine ⟨[{ call := .rxReadSome 8 1000, outcome := returned 8 m3.readSome (s.rxq ++ m3.arrivals) }] ++
    [{ call := .memWrite [0xF0], outcome := .ok }] ++ [{ call := .wait 2000, outcome := .ok }] ++
    [{ call := .rxReadSome 1 10000, outcome := returned 1 m6.readSome q6 }] ++
    [{ call := .setRate .tx .fast, outcome := .ok }] ++ [{ call := .setRate .rx .fast, outcome := .ok }], rfl, ?_⟩
  subst hq6
  simp only [← List.append_assoc]
  refine run_of_step (step_drain_end hp hin h3) ?_
  refine run_of_step (step_write (.pulse rfl) rfl h4) ?_
  refine run_of_step (step_wait rfl rfl) ?_
  refine run_of_step (step_sample rfl rfl) ?_
  refine run_of_step (step_rate (.fastTx rfl) rfl h7) ?_
  refine run_of_step (step_rate (.fastRx rfl) rfl h8) ?_
  exact run_of_step (step_classify (resetDue_eq_false hrest) rfl) rfl

/-- Drain reads that deliver before it change `DRAINBUF` and the queue. -/
theorem run_reset_with_drains {drains : List EnvMove} {m3 m4 m5 m6 m7 m8 : EnvMove} {q q6 : List Byte}
    (hp : s.phase = .rstDrain) (hin : s.inputs = drains.map .move ++ ([m3, m4, m5, m6, m7, m8].map .move ++ rest))
    (hrest : ∀ k, rest.head? ≠ some (.blockReset k)) (hq : drained Config.owbt s.rxq drains = some q)
    (h3 : delivered 8 m3.readSome (q ++ m3.arrivals) = []) (h4 : m4.write = .ok)
    (hq6 : q6 = leftBy 8 m3.readSome (q ++ m3.arrivals) ++ m4.arrivals ++ m5.arrivals ++ m6.arrivals)
    (h7 : m7.setRate = .ok) (h8 : m8.setRate = .ok) :
    ∃ db es, es.length = drains.length + 6 ∧ run (drains.length + 7) s = .next
      { s with
        phase := .idle
        resp := (delivered 1 m6.readSome q6).head?
        drainbuf := db
        txRate := .fast
        rxRate := .fast
        rxq := leftBy 1 m6.readSome q6 ++ m7.arrivals ++ m8.arrivals
        txStream := s.txStream ++ [{ char := 0xF0, rate := s.txRate }]
        inputs := rest
        response := some (responseWord .ok (classify Config.owbt (delivered 1 m6.readSome q6).head?) 0x00#8)
        responses := s.responses ++ [responseWord .ok (classify Config.owbt (delivered 1 m6.readSome q6).head?) 0x00#8]
        events := s.events ++ es } := by
  obtain ⟨db, hdrains⟩ := run_drains drains hp hin hq
  obtain ⟨es, hlen, htail⟩ := run_reset_from_drain (s := { s with
    rxq := q, inputs := [m3, m4, m5, m6, m7, m8].map .move ++ rest, drainbuf := db
    events := s.events ++ drainEvents s.rxq drains }) hp rfl hrest h3 h4 hq6 h7 h8
  refine ⟨db, drainEvents s.rxq drains ++ es, by rw [List.length_append, drainEvents_length, hlen],
    (run_add hdrains 7).trans (htail.trans ?_)⟩
  rw [← List.append_assoc]

/-- The state at the drain, both rates having been made slow. -/
def atDrain (m1 m2 : EnvMove) (rest : List EnvInput) (s : State) : State :=
  { s with
    phase := .rstDrain
    txRate := .slow
    rxRate := .slow
    rxq := s.rxq ++ m1.arrivals ++ m2.arrivals
    inputs := rest
    events := s.events ++ [{ call := .setRate .tx .slow, outcome := .ok }] ++
      [{ call := .setRate .rx .slow, outcome := .ok }] }

theorem run_slow_rates {m1 m2 : EnvMove} (hp : s.phase = .rstSlowTx)
    (hin : s.inputs = .move m1 :: .move m2 :: rest) (h1 : m1.setRate = .ok) (h2 : m2.setRate = .ok)
    (h : run n (atDrain m1 m2 rest s) = o) : run (n + 1 + 1) s = o :=
  run_of_step (step_rate (.slowTx hp) hin h1) (run_of_step (step_rate (.slowRx rfl) rfl h2) h)

/-- Settles O24: acceptance, the two slow rates, the drain reads that deliver, and the rest. -/
theorem resetCompletes : Obligations.ResetCompletes := by
  intro s m1 m2 drains m3 m4 m5 m6 m7 m8 rest q q6 hp hin hrest h1 h2 hq h3 h4 hq6 h7 h8
  obtain ⟨hacc, -, -⟩ := acceptanceInIdle s hp
  rw [List.map_append, List.map_append, List.append_assoc, List.append_assoc] at hin
  obtain ⟨db, es, hlen, hrun⟩ := run_reset_with_drains
    (s := atDrain m1 m2 _ { s with phase := .rstSlowTx, response := none }) rfl rfl hrest hq h3 h4 hq6 h7 h8
  have hall := run_slow_rates (s := { s with phase := .rstSlowTx, response := none }) rfl hin h1 h2 hrun
  rw [show drains.length + 7 + 1 + 1 = 9 + drains.length by omega] at hall
  refine ⟨_, _, hacc, rfl, hall, ?_⟩
  refine ⟨rfl, rfl, rfl, rfl, rfl, rfl, rfl, ?_, rfl, rfl, rfl, rfl, rfl, rfl, rfl⟩
  simp only [atDrain, List.length_append, List.length_singleton, hlen]
  omega

end Sys2Proof.Machine
end

section
/-! SUPPORT. The reference environment `ENV_REF` (20_memory.md R69): what it answers at each call, why every run in it obeys
`ECHO` and `WIRE_AND`, and the commands run in it to their end. -/

namespace Sys2Proof.Machine

variable {e : EnvRef} {s t : State} {v : List Byte} {n : Nat}

/-! ### What it answers -/

theorem refNext_of_ok (hf : e.failing.contains (s.events.length + 1) = false) :
    refNext e s =
      match outstandingCall Config.owbt s with
      | some (.memWrite v) => { e with pulls := e.pulls.drop v.length }
      | _ => e := by
  rw [refNext, hf]
  rfl

theorem refNext_of_failing (hf : e.failing.contains (s.events.length + 1) = true) : refNext e s = e := by
  rw [refNext, hf]
  rfl

section
variable (hf : e.failing.contains (s.events.length + 1) = false)
include hf

theorem refMove_of_write (hc : outstandingCall Config.owbt s = some (.memWrite v)) :
    refMove e s = { arrivals := readbacks e.pulls v } := by
  rw [refMove_of_ok hf, hc]

theorem refNext_of_write (hc : outstandingCall Config.owbt s = some (.memWrite v)) :
    refNext e s = { e with pulls := e.pulls.drop v.length } := by
  rw [refNext_of_ok hf, hc]

theorem refMove_of_readSome {len : Nat} {bound : Micros}
    (hc : outstandingCall Config.owbt s = some (.rxReadSome len bound)) :
    refMove e s = { readSome := if s.rxq.isEmpty then .timeout else .bytes (min len s.rxq.length) } := by
  rw [refMove_of_ok hf, hc]

/-- Nothing arrives at the other calls, and each of them succeeds. -/
theorem refMove_of_other (hw : ∀ v, outstandingCall Config.owbt s ≠ some (.memWrite v))
    (hr : ∀ len bound, outstandingCall Config.owbt s ≠ some (.rxReadSome len bound)) : refMove e s = {} := by
  rw [refMove_of_ok hf]
  split
  · exact absurd ‹_› (hw _)
  · exact absurd ‹_› (hr _ _)
  · rfl

/-- At a call that sends nothing nothing arrives. -/
theorem refMove_arrivals_of_no_write (hc : ∀ v, outstandingCall Config.owbt s ≠ some (.memWrite v)) :
    (refMove e s).arrivals = [] := by
  rw [refMove_of_ok hf]
  split
  · exact absurd ‹_› (hc _)
  · rfl
  · rfl

theorem refNext_of_no_write (hc : ∀ v, outstandingCall Config.owbt s ≠ some (.memWrite v)) : refNext e s = e := by
  rw [refNext_of_ok hf]
  split
  · exact absurd ‹_› (hc _)
  · rfl

theorem refMove_setRate : (refMove e s).setRate = .ok := by
  rw [refMove_of_ok hf]
  split <;> rfl

theorem refMove_readExact : (refMove e s).readExact = .arrive := by
  rw [refMove_of_ok hf]
  split <;> rfl

theorem refNext_failing : (refNext e s).failing = e.failing := by
  rw [refNext_of_ok hf]
  split <;> rfl

end

theorem getElem?_readbacks (pulls v : List Byte) {k : Nat} (h : k < v.length) :
    (readbacks pulls v)[k]? = some (v[k] &&& pulls.getD k 0xFF) := by
  rw [readbacks, List.getElem?_mapIdx, List.getElem?_eq_getElem h]
  rfl

/-- A device can only pull a bit down. -/
theorem wireAnd_and (b m : Byte) : wireAnd b (b &&& m) = true := by
  rw [wireAnd, beq_iff_eq]
  rw [BitVec.and_comm b m, BitVec.and_assoc, BitVec.and_not_self]
  exact BitVec.and_zero

/-! ### What a step in it sends and appends -/

theorem map_char_map (v : List Byte) (r : Rate) :
    (v.map fun x => ({ char := x, rate := r } : SentChar)).map SentChar.char = v := by
  rw [List.map_map]
  exact List.map_id v

/-- The environment moves at every call. -/
theorem takesMove_of_call {call : Call} (hdue : resetDue s = false)
    (hc : outstandingCall Config.owbt s = some call) : takesMove s = true := by
  have hp : s.phase ≠ .idle := fun hp => by simp [outstandingCall_of_idle hp] at hc
  exact (takesMove_iff s).2 ⟨hdue, fetchWord_busy hp, .inr (by rw [hc]; nofun)⟩

theorem resetDue_refReset (s : State) : resetDue { s with inputs := refReset s.inputs } = resetDue s := by
  unfold resetDue refReset
  rcases s.inputs with _ | ⟨i, rest⟩
  · rfl
  · cases i <;> rfl

theorem refState_of_move (h : takesMove s = true) :
    refState e s = { s with inputs := .move (refMove e s) :: s.inputs } := if_pos h

theorem refState_of_no_move (h : takesMove s = false) : refState e s = { s with inputs := refReset s.inputs } :=
  if_neg (by rw [h]; nofun)

theorem takesMove_refState (e : EnvRef) (s : State) : takesMove (refState e s) = takesMove s := by
  cases h : takesMove s with
  | true => exact refState_takesMove h
  | false => rw [refState_of_no_move h, ← h, takesMove, resetDue_refReset]; rfl

theorem outstandingCall_refState (e : EnvRef) (s : State) :
    outstandingCall Config.owbt (refState e s) = outstandingCall Config.owbt s := by
  unfold refState
  split <;> rfl

/-- In the state `s` in which a step is taken the bytes appended are those sent, ANDed with the script, and no more than
are being written; and `next` is what is left of the script. -/
structure Echoes (pulls next : List Byte) (s : State) : Prop where
  arrivals : arrivalsAt s = readbacks pulls ((sentAt s).map SentChar.char)
  le : (sentAt s).length ≤ (writingAt s).length
  script : next = pulls.drop (sentAt s).length

/-- A step in which nothing is sent or appended leaves the script. -/
theorem echoes_silent {pulls : List Byte} (ha : arrivalsAt s = []) (hs : sentAt s = []) : Echoes pulls pulls s where
  arrivals := by rw [ha, hs]; rfl
  le := by rw [hs]; exact Nat.zero_le _
  script := by rw [hs]; rfl

/-- A block reset finds no character of a write sent, and elsewhere nothing is sent. -/
theorem echoes_of_no_move (h : takesMove s = false) : Echoes e.pulls e.pulls (refState e s) := by
  refine echoes_silent (by rw [arrivalsAt, takesMove_refState, h]; rfl) ?_
  rw [refState_of_no_move h]
  have hmove : takesMove { s with inputs := refReset s.inputs } = false := by
    rw [← refState_of_no_move (e := e) h, takesMove_refState, h]
  cases hr : resetDue s with
  | false => exact sentAt_of_no_move hmove (by rw [resetDue_refReset, hr])
  | true =>
    obtain ⟨k, rest, hi⟩ := (resetDue_iff s).1 hr
    have hcut : cutCount { s with inputs := refReset s.inputs } = 0 := by rw [cutCount, hi]; rfl
    rw [sentAt_of_reset (by rw [resetDue_refReset, hr]), hcut]
    rfl

/-- A move of `ENV_REF` echoes what is sent. -/
theorem echoes_of_move (h : takesMove s = true) : Echoes e.pulls (refNext e s).pulls (refState e s) := by
  have harr : arrivalsAt (refState e s) = (refMove e s).arrivals := by
    rw [arrivalsAt, takesMove_refState, h, refState_of_move h]; rfl
  have hmove : nextMove (refState e s) = refMove e s := by rw [refState_of_move h]; rfl
  have hsent := sentAt_of_move (refState_takesMove (e := e) h)
  rw [outstandingCall_refState, hmove] at hsent
  cases hf : e.failing.contains (s.events.length + 1) with
  | true =>
    rw [refNext_of_failing hf]
    refine echoes_silent (by rw [harr, refMove_of_failing hf]) ?_
    rcases hsent with ⟨v, -, -, ⟨hw, -⟩ | ⟨k, hw, hs⟩ | ⟨hw, -⟩⟩ | ⟨-, hs⟩
    · simp [refMove_of_failing hf] at hw
    · obtain rfl : 0 = k := by simpa [refMove_of_failing hf] using hw
      exact hs
    · simp [refMove_of_failing hf] at hw
    · exact hs
  | false =>
    rcases hsent with ⟨v, hc, hv, hs⟩ | ⟨hc, hs⟩
    · rw [refMove_of_write hf hc] at hs harr
      rw [refNext_of_write hf hc]
      rcases hs with ⟨-, hs⟩ | ⟨k, hw, -⟩ | ⟨hw, -⟩
      · refine ⟨?_, by rw [hs, hv, List.length_map], by rw [hs, List.length_map]⟩
        rw [harr, hs, map_char_map]
      · nomatch hw
      · nomatch hw
    · rw [refNext_of_no_write hf hc]
      exact echoes_silent (by rw [harr, refMove_arrivals_of_no_write hf hc]) hs

theorem refStep_echoes (e : EnvRef) (s : State) : Echoes e.pulls (refStep e s).1.pulls (refState e s) := by
  rw [refStep]
  cases h : takesMove s with
  | true => exact echoes_of_move h
  | false => exact echoes_of_no_move h

/-! ### Runs in it -/

theorem refRun_of_next {e' : EnvRef} (h : refStep e s = (e', .next t)) : refRun (n + 1) e s = refRun n e' t := by
  rw [refRun, h]

theorem refPath_of_next {e' : EnvRef} (h : refStep e s = (e', .next t)) :
    refPath (n + 1) e s = refState e s :: refPath n e' t := by
  rw [refPath, h]

theorem refRun_of_refused {e' : EnvRef} {r : Refusal} (h : refStep e s = (e', .refused r)) :
    refRun (n + 1) e s = (e', .refused r) := by
  rw [refRun, h]

theorem refPath_of_refused {e' : EnvRef} {r : Refusal} (h : refStep e s = (e', .refused r)) :
    refPath (n + 1) e s = [refState e s] := by
  rw [refPath, h]

/-- Over the path `p` no byte is appended early, the bytes appended are those sent, ANDed with the script, and `next` is what
is left of the script. -/
structure EchoesAlong (pulls next : List Byte) (p : List State) : Prop where
  early : ∀ k, noneEarly k k p = true
  arrivals : pathArrivals p = readbacks pulls ((pathSent p).map SentChar.char)
  script : next = pulls.drop (pathSent p).length

theorem echoesAlong_cons {pulls mid next : List Byte} {p : List State} (hs : Echoes pulls mid s)
    (hp : EchoesAlong mid next p) : EchoesAlong pulls next (s :: p) := by
  obtain ⟨ha, hle, rfl⟩ := hs
  obtain ⟨hearly, harr, rfl⟩ := hp
  have hlen : (arrivalsAt s).length = (sentAt s).length := by rw [ha, readbacks_length, List.length_map]
  have hsent : pathSent (s :: p) = sentAt s ++ pathSent p := List.flatMap_cons
  have happended : pathArrivals (s :: p) = arrivalsAt s ++ pathArrivals p := List.flatMap_cons
  refine ⟨fun k => ?_, ?_, ?_⟩
  · rw [noneEarly, hlen, hearly, Bool.and_true, decide_eq_true_iff]
    omega
  · rw [happended, hsent, ha, harr, List.map_append, readbacks_append, List.length_map]
  · rw [hsent, List.length_append, List.drop_drop]

theorem refPath_echoes (n : Nat) : ∀ e s, EchoesAlong e.pulls (refRun n e s).1.pulls (refPath n e s) := by
  induction n with
  | zero => exact fun _ _ => ⟨fun _ => rfl, rfl, rfl⟩
  | succ n ih =>
    intro e s
    have hs := refStep_echoes e s
    rcases h : refStep e s with ⟨e', u | f | r⟩
    · rw [refRun_of_next h, refPath_of_next h]
      rw [h] at hs
      exact echoesAlong_cons hs (ih e' u)
    · nomatch f
    · rw [refRun_of_refused h, refPath_of_refused h]
      rw [h] at hs
      exact echoesAlong_cons hs ⟨fun _ => rfl, rfl, rfl⟩

/-- Characters and their readbacks obey the wire law, whatever the script. -/
theorem wireLaw_readbacks (pulls : List Byte) (xs : List SentChar) :
    ∀ x ∈ xs.zip (readbacks pulls (xs.map SentChar.char)), wireAnd x.1.char x.2 = true := by
  intro x hx
  obtain ⟨k, hk, rfl⟩ := List.mem_iff_getElem.1 hx
  simp [readbacks, wireAnd_and]

/-- Settles O56: the answers call by call, and the premises along every run. -/
theorem referenceEnvironmentEchoes : Obligations.ReferenceEnvironmentEchoes := by
  refine ⟨fun e s hf => ?_, fun e s hf => ?_, fun n e s => ?_⟩
  · refine ⟨refMove_setRate hf, refNext_failing hf, fun v hc => ?_, fun hc => ?_, fun len bound hc => ?_,
      fun _ _ => refMove_readExact hf⟩
    · rw [refMove_of_write hf hc, refNext_of_write hf hc]
      exact ⟨rfl, readbacks_length .., rfl, fun k h => ⟨_, getElem?_readbacks e.pulls v h, wireAnd_and .., rfl⟩⟩
    · exact ⟨refMove_arrivals_of_no_write hf hc, by rw [refNext_of_no_write hf hc]⟩
    · rw [refMove_of_readSome hf hc]
      exact ⟨fun hq => by rw [hq]; rfl, fun hq => if_neg (by simpa using hq)⟩
  · rw [refMove_of_failing hf, refNext_of_failing hf]
    exact ⟨rfl, rfl, rfl⟩
  · obtain ⟨hearly, harr, hscript⟩ := refPath_echoes n e s
    refine ⟨?_, ?_, harr, hscript⟩
    · rw [echo, hearly, harr, readbacks_length, List.length_map, beq_self_eq_true]
      rfl
    · rw [wireLaw, harr, List.all_eq_true]
      exact wireLaw_readbacks _ _

end Sys2Proof.Machine
end

section
/-! SUPPORT. The commands in the reference environment (20_memory.md R69): what is left to run after each step in it, a byte
exchange whatever bytes were there before it, and a bus reset, each run to its end. -/

namespace Sys2Proof.Machine

variable {e e' : EnvRef} {s t : State} {n : Nat} {o : EnvRef × Host.Outcome State Fault Refusal}

/-! ### Steps that take no move -/

/-- A step in which no move is taken and no block reset is due is a step of the machine. -/
theorem refRun_of_no_move (hin : s.inputs = []) (hm : takesMove s = false) (hs : step s = .next t)
    (h : refRun n e t = o) : refRun (n + 1) e s = o := by
  have hstate : refState e s = s := by
    rw [refState_of_no_move hm, hin, show refReset [] = s.inputs from hin.symm]
  rw [refRun_of_next (e' := e) (t := t) (by rw [refStep, hm, hstate, hs]; rfl), h]

/-- A command is accepted in one step. -/
theorem refRun_of_word {w : CommandWord} {i : Instr} (hp : s.phase = .idle) (hin : s.inputs = [])
    (ho : s.offers = [w]) (hd : decode w = .ok i) (he : exec i (takeOffer s) = .next t) (h : refRun n e t = o) :
    refRun (n + 1) e s = o := by
  have hf := fetchWord_of_offers hp ho
  refine refRun_of_no_move hin (by simp [takesMove, hf]) ?_ h
  rw [step_of_decode (by rw [resetDue, hin]) hf hd, he]

/-- A phase that makes no call. -/
theorem refRun_of_pure (hin : s.inputs = []) (hp : s.phase ≠ .idle) (hc : outstandingCall Config.owbt s = none)
    (hs : phaseStep Config.owbt s = t) (h : refRun n e t = o) : refRun (n + 1) e s = o :=
  refRun_of_no_move hin (by simp [takesMove, hp, hc]) (step_phase (by rw [resetDue, hin]) hp hs) h

theorem refRun_of_encode (hin : s.inputs = []) (hp : s.phase = .xchEncode)
    (h : refRun n e (goto .xchTx (setTxbuf (encByte Config.owbt s.operand) s)) = o) : refRun (n + 1) e s = o :=
  refRun_of_pure hin (by rw [hp]; nofun) (outstandingCall_of_xchEncode hp) (phaseStep_of_xchEncode hp) h

theorem refRun_of_decode (hin : s.inputs = []) (hp : s.phase = .xchDecode)
    (h : refRun n e (respond .ok false (decByte Config.owbt s.rxbuf) s) = o) : refRun (n + 1) e s = o :=
  refRun_of_pure hin (by rw [hp]; nofun) (outstandingCall_of_xchDecode hp) (phaseStep_of_xchDecode hp) h

theorem refRun_of_classify (hin : s.inputs = []) (hp : s.phase = .rstClassify)
    (h : refRun n e (respond .ok (classify Config.owbt s.resp) 0x00#8 s) = o) : refRun (n + 1) e s = o :=
  refRun_of_pure hin (by rw [hp]; nofun) (outstandingCall_of_rstClassify hp) (phaseStep_of_rstClassify hp) h

/-! ### Steps at a call -/

/-- At a call the step is that of the state in which the move of `ENV_REF` is the first input. -/
theorem refRun_of_call {call : Call} {m : EnvMove} (hin : s.inputs = [])
    (hc : outstandingCall Config.owbt s = some call) (hm : refMove e s = m) (he : refNext e s = e')
    (hs : step { s with inputs := [.move m] } = .next t) (h : refRun n e' t = o) : refRun (n + 1) e s = o := by
  have hmove : takesMove s = true := takesMove_of_call (by rw [resetDue, hin]) hc
  rw [refRun_of_next (e' := e') (t := t) ?_, h]
  rw [refStep, hmove, if_pos rfl, he, refState_of_move hmove, hm, hin, hs]

/-- A move that appends nothing leaves the state as it was before the move was written down. -/
theorem moved_of_silent {m : EnvMove} (hin : s.inputs = []) (ha : m.arrivals = []) :
    moved m [] { s with inputs := [.move m] } = s := by
  rw [moved, ha, List.append_nil, ← hin]

theorem not_failing {k : Nat} (hf : e.failing = []) : e.failing.contains k = false := by rw [hf]; rfl

theorem refRun_of_rate {k : Cap} {r : Rate} {next : Phase} (hin : s.inputs = []) (hf : e.failing = [])
    (hp : RatePhase s.phase k r next)
    (h : refRun n e (goto next (logEvent (.setRate k r) .ok (withRate k r s))) = o) : refRun (n + 1) e s = o := by
  have hc : outstandingCall Config.owbt s = some (.setRate k r) := hp.outstandingCall
  have hw : ∀ v, outstandingCall Config.owbt s ≠ some (.memWrite v) := by rw [hc]; nofun
  refine refRun_of_call hin hc (refMove_of_other (not_failing hf) hw (by rw [hc]; nofun))
    (refNext_of_no_write (not_failing hf) hw) (step_rate (s := { s with inputs := _ }) hp rfl rfl) ?_
  rwa [moved_of_silent hin rfl]

theorem refRun_of_wait (hin : s.inputs = []) (hf : e.failing = []) (hp : s.phase = .rstWait)
    (h : refRun n e (goto .rstSample (wait 2000 s)) = o) : refRun (n + 1) e s = o := by
  have hc : outstandingCall Config.owbt s = some (.wait 2000) := outstandingCall_of_rstWait hp
  have hw : ∀ v, outstandingCall Config.owbt s ≠ some (.memWrite v) := by rw [hc]; nofun
  refine refRun_of_call hin hc (refMove_of_other (not_failing hf) hw (by rw [hc]; nofun))
    (refNext_of_no_write (not_failing hf) hw) (step_wait hp rfl) ?_
  rwa [moved_of_silent hin rfl]

theorem refRun_of_receive (hin : s.inputs = []) (hf : e.failing = []) (hp : s.phase = .xchRx) (hl : 8 ≤ s.rxq.length)
    (h : refRun n e (goto .xchDecode (setRxbuf (charsOf (s.rxq.take 8))
      (logEvent (.memRead 8) (.bytes (s.rxq.take 8)) (dropRx 8 s)))) = o) : refRun (n + 1) e s = o := by
  have hc : outstandingCall Config.owbt s = some (.memRead 8) := outstandingCall_of_xchRx hp
  have hw : ∀ v, outstandingCall Config.owbt s ≠ some (.memWrite v) := by rw [hc]; nofun
  refine refRun_of_call hin hc (refMove_of_other (not_failing hf) hw (by rw [hc]; nofun))
    (refNext_of_no_write (not_failing hf) hw)
    (step_receive (s := { s with inputs := [.move {}] }) (q := s.rxq) hp rfl (fun _ => by simp) (List.append_nil _).symm hl) ?_
  rwa [moved_of_silent hin rfl]

/-- A write is echoed at once. -/
theorem refRun_of_write {v : List Byte} {next : Phase} (hin : s.inputs = []) (hf : e.failing = [])
    (hp : WritePhase Config.owbt s v next)
    (h : refRun n { e with pulls := e.pulls.drop v.length } (goto next (logEvent (.memWrite v) .ok (transmit v
      { s with rxq := s.rxq ++ readbacks e.pulls v, inputs := [] }))) = o) : refRun (n + 1) e s = o := by
  have hc : outstandingCall Config.owbt s = some (.memWrite v) := hp.outstandingCall
  have hstep : WritePhase Config.owbt { s with inputs := [.move { arrivals := readbacks e.pulls v }] } v next := by
    cases hp with
    | pulse hp => exact .pulse hp
    | exchange hp => exact .exchange hp
  exact refRun_of_call hin hc (refMove_of_write (not_failing hf) hc) (refNext_of_write (not_failing hf) hc)
    (step_write hstep rfl rfl) h

/-- The drain finds an empty queue. -/
theorem refRun_of_drain_empty (hin : s.inputs = []) (hf : e.failing = []) (hp : s.phase = .rstDrain)
    (hq : s.rxq = []) (h : refRun n e (goto .rstPulse (logEvent (.rxReadSome 8 1000) .timeout s)) = o) :
    refRun (n + 1) e s = o := by
  have hc : outstandingCall Config.owbt s = some (.rxReadSome 8 1000) := outstandingCall_of_rstDrain hp
  have hm : refMove e s = { readSome := .timeout } := by rw [refMove_of_readSome (not_failing hf) hc, hq]; rfl
  refine refRun_of_call hin hc hm (refNext_of_no_write (not_failing hf) (by rw [hc]; nofun))
    (step_drain_end hp rfl rfl) ?_
  rwa [moved_of_silent hin rfl]

/-- The presence read takes the one byte that is there. -/
theorem refRun_of_sample {b : Byte} (hin : s.inputs = []) (hf : e.failing = []) (hp : s.phase = .rstSample)
    (hq : s.rxq = [b])
    (h : refRun n e (goto .rstFastTx (setResp (some b)
      (logEvent (.rxReadSome 1 10000) (.bytes [b]) { s with rxq := [] }))) = o) : refRun (n + 1) e s = o := by
  have hc : outstandingCall Config.owbt s = some (.rxReadSome 1 10000) := outstandingCall_of_rstSample hp
  have hm : refMove e s = { readSome := .bytes 1 } := by rw [refMove_of_readSome (not_failing hf) hc, hq]; rfl
  refine refRun_of_call hin hc hm (refNext_of_no_write (not_failing hf) (by rw [hc]; nofun)) (step_sample hp rfl) ?_
  rw [moved_of_silent hin rfl, readSome, hq]
  exact h

/-! ### The commands -/

/-- A byte exchange of `b` after the bytes that were there: the eight oldest bytes of the queue and the echo are the
readbacks. -/
theorem refRun_exchange {b : Byte} {pulls q : List Byte} (hp : s.phase = .idle) (hin : s.inputs = [])
    (ho : s.offers = [encode (.writeReadByte b)])
    (hq : q = s.rxq ++ readbacks pulls (encByte Config.owbt b).toList) :
    refRun 5 { pulls := pulls, failing := [] } s = ({ pulls := pulls.drop 8, failing := [] }, .next
      { s with
        phase := .idle
        operand := b
        txbuf := encByte Config.owbt b
        rxbuf := charsOf (q.take 8)
        rxq := q.drop 8
        txStream := s.txStream ++ (encByte Config.owbt b).toList.map fun x => { char := x, rate := s.txRate }
        offers := s.offers.tail
        inputs := []
        response := some (responseWord .ok false (decByte Config.owbt (charsOf (q.take 8))))
        responses := s.responses ++ [responseWord .ok false (decByte Config.owbt (charsOf (q.take 8)))]
        events := s.events ++ [{ call := .memWrite (encByte Config.owbt b).toList, outcome := .ok }] ++
          [{ call := .memRead 8, outcome := .bytes (q.take 8) }] }) := by
  have hacc := (acceptanceInIdle (takeOffer s) hp).2.1 b
  have hl : 8 ≤ q.length := by
    rw [hq, List.length_append, readbacks_length, Vector.length_toList]
    exact Nat.le_add_left ..
  subst hq
  refine refRun_of_word hp hin ho (decode_encode _) hacc ?_
  refine refRun_of_encode hin rfl ?_
  refine refRun_of_write hin rfl (.exchange rfl) ?_
  refine refRun_of_receive rfl rfl rfl hl ?_
  refine refRun_of_decode rfl rfl ?_
  rfl

/-- A bus reset with an empty queue: the drain finds nothing, and the presence read takes the echo of the pulse. -/
theorem refRun_reset {m : Byte} {pulls : List Byte} {w : CommandWord} (hp : s.phase = .idle) (hin : s.inputs = [])
    (hrxq : s.rxq = []) (ho : s.offers = [w]) (hw : w &&& opMask = 0x000#10) :
    refRun 10 { pulls := m :: pulls, failing := [] } s = ({ pulls := pulls, failing := [] }, .next
      { s with
        phase := .idle
        resp := some (0xF0 &&& m)
        txRate := .fast
        rxRate := .fast
        rxq := []
        txStream := s.txStream ++ [{ char := 0xF0, rate := .slow }]
        offers := s.offers.tail
        inputs := []
        response := some (responseWord .ok (classify Config.owbt (some (0xF0 &&& m))) 0x00#8)
        responses := s.responses ++ [responseWord .ok (classify Config.owbt (some (0xF0 &&& m))) 0x00#8]
        events := s.events ++ [{ call := .setRate .tx .slow, outcome := .ok }] ++
          [{ call := .setRate .rx .slow, outcome := .ok }] ++ [{ call := .rxReadSome 8 1000, outcome := .timeout }] ++
          [{ call := .memWrite [0xF0], outcome := .ok }] ++ [{ call := .wait 2000, outcome := .ok }] ++
          [{ call := .rxReadSome 1 10000, outcome := .bytes [0xF0 &&& m] }] ++
          [{ call := .setRate .tx .fast, outcome := .ok }] ++ [{ call := .setRate .rx .fast, outcome := .ok }] }) := by
  have hacc := (acceptanceInIdle (takeOffer s) hp).1
  have hd : decode w = .ok .reset := decode_of_and_opMask nofun hw
  have hecho : s.rxq ++ readbacks (m :: pulls) [0xF0] = [0xF0 &&& m] := by rw [hrxq]; rfl
  refine refRun_of_word hp hin ho hd hacc ?_
  refine refRun_of_rate hin rfl (.slowTx rfl) ?_
  refine refRun_of_rate hin rfl (.slowRx rfl) ?_
  refine refRun_of_drain_empty hin rfl rfl hrxq ?_
  refine refRun_of_write hin rfl (.pulse rfl) ?_
  refine refRun_of_wait rfl rfl rfl ?_
  refine refRun_of_sample rfl rfl rfl hecho ?_
  refine refRun_of_rate rfl rfl (.fastTx rfl) ?_
  refine refRun_of_rate rfl rfl (.fastRx rfl) ?_
  exact refRun_of_classify rfl rfl rfl

/-- Settles O59: the calls in order. -/
theorem busResetUnderReference : Obligations.BusResetUnderReference := by
  intro s m pulls w hp hin hrxq ho hw
  refine ⟨_, congrArg Prod.snd (refRun_reset hp hin hrxq ho hw), rfl, rfl, rfl, rfl, rfl, ?_⟩
  simp only [List.append_assoc]
  rfl

/-! ### The readbacks of an exchange -/

theorem getElem_charsOf (bs : List Byte) (i : Nat) (h : i < 8) : (charsOf bs)[i] = bs.getD i 0 := by
  interval_cases i <;> rfl

/-- Readback `i` decides bit `i` of the response. -/
theorem getLsbD_decByte_charsOf {q : List Byte} {i : Nat} {r : Byte} (h : i < 8) (hr : q[i]? = some r) :
    (decByte Config.owbt (charsOf (q.take 8))).getLsbD i = (r == 0xFF) := by
  rw [getLsbD_decByte _ _ i h, getElem_charsOf _ i h, List.getD_eq_getElem?_getD, List.getElem?_take_of_lt h, hr]
  rfl

theorem getElem?_readbacks_encByte (pulls : List Byte) (b : Byte) {i : Nat} (h : i < 8) :
    (readbacks pulls (encByte Config.owbt b).toList)[i]? =
      some (encBit Config.owbt (b.getLsbD i) &&& pulls.getD i 0xFF) := by
  rw [getElem?_readbacks pulls _ (by rwa [Vector.length_toList]), Vector.getElem_toList, getElem_encByte]

/-- Settles O58: each readback is the character of its bit ANDed with its pull. -/
theorem exchangeUnderReference : Obligations.ExchangeUnderReference := by
  intro s b pulls hp hin hrxq ho
  have hrun := refRun_exchange (pulls := pulls) (q := readbacks pulls (encByte Config.owbt b).toList) hp hin ho
    (by rw [hrxq, List.nil_append])
  have hbits (i : Nat) (h : i < 8) := (getLsbD_decByte_charsOf h (getElem?_readbacks_encByte pulls b h)).trans
    (decSlot_encBit_and (b.getLsbD i) (pulls.getD i 0xFF))
  refine ⟨_, _, congrArg Prod.snd hrun, rfl, rfl, ?_, rfl, rfl, hbits, fun hpulls => ?_⟩
  · exact List.drop_eq_nil_of_le (by rw [readbacks_length, Vector.length_toList])
  · refine BitVec.eq_of_getLsbD_eq fun i h => ?_
    rw [hbits i h, hpulls i h, beq_self_eq_true, Bool.and_true]

/-- Settles O60: the stale byte is the first readback, and the last echo is left. -/
theorem staleByteShiftsResult : Obligations.StaleByteShiftsResult := by
  intro s b x hp hin hrxq ho
  have hrun := refRun_exchange (pulls := []) (q := x :: readbacks [] (encByte Config.owbt b).toList) hp hin ho
    (by rw [hrxq, List.singleton_append])
  refine ⟨_, _, congrArg Prod.snd hrun, rfl, getLsbD_decByte_charsOf (by decide) rfl, fun i h => ?_, ?_⟩
  · have hecho := getElem?_readbacks_encByte [] b (show i < 8 by omega)
    rw [getLsbD_decByte_charsOf (q := x :: readbacks [] (encByte Config.owbt b).toList) (by omega) hecho]
    exact (decSlot_encBit_and (b.getLsbD i) 0xFF).trans (Bool.and_true _)
  · exact congrArg (fun y : Byte => [y]) BitVec.and_allOnes

end Sys2Proof.Machine
end

section
/-! SUPPORT. A byte exchange in any environment, up to its response (42_byte_exchange.md section 3): in each of its phases
what has been sent, what has been appended to `RXQ`, and what of it has been taken. -/

namespace Sys2Proof.Machine

variable {b : Byte} {s t : State} {n : Nat}

/-! ### Runs, step by step -/

/-- A run ends with a step from the end of the run before it. -/
theorem run_succ_last : ∀ {n : Nat} {s t : State}, run (n + 1) s = .next t →
    ∃ m, run n s = .next m ∧ step m = .next t := by
  intro n
  induction n with
  | zero =>
    intro s t h
    cases hs : step s with
    | next u => exact ⟨s, rfl, hs.trans ((run_succ_of_next hs).symm.trans h)⟩
    | fault f => nomatch f
    | refused r => cases (run_succ_of_refused hs).symm.trans h
  | succ n ih =>
    intro s t h
    cases hs : step s with
    | next u =>
      obtain ⟨m, hm, hstep⟩ := ih ((run_succ_of_next hs).symm.trans h)
      exact ⟨m, (run_succ_of_next hs).trans hm, hstep⟩
    | fault f => nomatch f
    | refused r => cases (run_succ_of_refused hs).symm.trans h

theorem step_responses_extend (h : step s = .next t) : s.responses <+: t.responses := by
  obtain ⟨es, rs, xs, -, hrs, -⟩ := historyNeverRead s t [] [] [] h
  exact ⟨rs, hrs.symm⟩

theorem run_responses_extend : ∀ {n : Nat} {t : State}, run n s = .next t → s.responses <+: t.responses := by
  intro n
  induction n with
  | zero => rintro t h; cases h; exact ⟨[], List.append_nil _⟩
  | succ n ih =>
    intro t h
    obtain ⟨m, hm, hstep⟩ := run_succ_last h
    exact (ih hm).trans (step_responses_extend hstep)

/-- Moves are only used up. -/
theorem takeMove_inputs_subset (s : State) : (takeMove s).inputs ⊆ s.inputs := by
  unfold takeMove
  split
  · rename_i m rest h
    rw [h]
    exact List.subset_cons_self _ _
  · exact List.Subset.refl _

theorem PhaseOutcome.inputs_subset {c : Cfg} (h : PhaseOutcome c s t) : t.inputs ⊆ s.inputs := by
  cases h with
  | classified | encoded | decoded => exact List.Subset.refl _
  | rateSet | rateRejected => simpa using takeMove_inputs_subset s
  | _ => exact takeMove_inputs_subset s

theorem step_inputs_subset (h : step s = .next t) : t.inputs ⊆ s.inputs := by
  rcases step_cases h with ⟨-, rfl⟩ | ⟨-, -, rfl⟩ | ⟨w, i, -, hf, -, he⟩
  · simpa using List.tail_subset s.inputs
  · exact (phaseStep_outcome Config.owbt s).inputs_subset
  · rcases exec_idle (s := takeOffer s) (fetchWord_some hf).1 he with rfl | ⟨v, rfl⟩ <;> exact List.Subset.refl _

theorem resetDue_of_not_mem (h : ∀ k, .blockReset k ∉ s.inputs) : resetDue s = false :=
  resetDue_eq_false fun k hk => h k (List.mem_of_mem_head? hk)

/-! ### What a step of the exchange sends and appends -/

theorem sentAt_of_step (h : step s = .next t) : sentAt s = t.txStream.drop s.txStream.length := by
  rw [sentAt, h]

theorem arrivalsAt_of_call {call : Call} (hdue : resetDue s = false)
    (hc : outstandingCall Config.owbt s = some call) : arrivalsAt s = (nextMove s).arrivals := by
  rw [arrivalsAt, takesMove_of_call hdue hc, if_pos rfl]

theorem arrivalsAt_of_no_move (hm : takesMove s = false) : arrivalsAt s = [] := by
  rw [arrivalsAt, hm]
  rfl

theorem pathSent_append_singleton (p : List State) (s : State) : pathSent (p ++ [s]) = pathSent p ++ sentAt s := by
  simp [pathSent]

theorem pathArrivals_append_singleton (p : List State) (s : State) :
    pathArrivals (p ++ [s]) = pathArrivals p ++ arrivalsAt s := by
  simp [pathArrivals]

/-! ### The exchange of `b` under way -/

/-- An exchange of `b` that began with an empty queue stands in `t`, when `sent` has been transmitted and `got` appended to
`RXQ`. -/
inductive Exchanging (b : Byte) (t : State) : List SentChar → List Byte → Prop
  | encode (hp : t.phase = .xchEncode) (ho : t.operand = b) (hq : t.rxq = []) : Exchanging b t [] []
  | write {got : List Byte} (hp : t.phase = .xchTx) (ht : t.txbuf = encByte Config.owbt b) (hq : t.rxq = got) :
      Exchanging b t [] got
  | read {sent : List SentChar} {got : List Byte} (hp : t.phase = .xchRx) (hs : sent.map SentChar.char = (encByte Config.owbt b).toList)
      (hq : t.rxq = got) : Exchanging b t sent got
  | decode {sent : List SentChar} {got : List Byte} (hp : t.phase = .xchDecode) (hs : sent.map SentChar.char = (encByte Config.owbt b).toList)
      (hb : t.rxbuf = charsOf (got.take 8)) (hq : t.rxq = got.drop 8) : Exchanging b t sent got

/-- Accepting the command begins the exchange, with nothing sent or appended. -/
theorem exchanging_of_accept {w : CommandWord} {rest : List CommandWord} {i : Instr} (hp : s.phase = .idle)
    (hq : s.rxq = []) (hdue : resetDue s = false) (ho : s.offers = w :: rest) (hd : decode w = .ok i)
    (hi : i = .writeReadByte b ∨ i = .readByte ∧ b = 0xFF) (hs : step s = .next t) :
    Exchanging b t (sentAt s) (arrivalsAt s) := by
  have hf := fetchWord_of_offers hp ho
  have hm : takesMove s = false := by simp [takesMove, hf]
  obtain ⟨-, hwrite, hread⟩ := acceptanceInIdle (takeOffer s) hp
  rw [sentAt_of_no_move hm hdue, arrivalsAt_of_no_move hm]
  rw [step_of_decode hdue hf hd] at hs
  rcases hi with rfl | ⟨rfl, rfl⟩
  · cases (hwrite b).symm.trans hs
    exact .encode rfl rfl hq
  · cases hread.symm.trans hs
    exact .encode rfl rfl hq

/-- A step of the exchange that presents nothing goes on with it. -/
theorem Exchanging.step {sent : List SentChar} {got : List Byte} (h : Exchanging b s sent got) (hdue : resetDue s = false) (hs : step s = .next t)
    (hr : t.responses = s.responses) : Exchanging b t (sent ++ sentAt s) (got ++ arrivalsAt s) := by
  rw [sentAt_of_step hs]
  cases h with
  | encode hp ho hq =>
    have hm : takesMove s = false := by simp [takesMove, outstandingCall_of_xchEncode hp, hp]
    rw [step_encode hdue hp] at hs
    cases hs
    rw [arrivalsAt_of_no_move hm, goto_txStream, setTxbuf_txStream, List.drop_length]
    exact .write rfl (by rw [goto_txbuf, setTxbuf_txbuf, ho]) hq
  | write hp ht hq =>
    rw [arrivalsAt_of_call hdue (WritePhase.exchange hp).outstandingCall]
    rw [step_of_busy hdue (by rw [hp]; nofun), phaseStep_of_xchTx hp] at hs
    cases hs
    rcases xchTx_cases s with ⟨-, he⟩ | ⟨_, -, he⟩ | ⟨-, he⟩ <;> rw [he] at hr ⊢
    · refine .read rfl ?_ (by simp [hq])
      rw [goto_txStream, logEvent_txStream, transmit_txStream, takeMove_txStream, List.drop_left, List.nil_append,
        map_char_map, ht]
    · simp at hr
    · rw [takeMove_txStream, List.drop_length]
      exact .write (by rw [takeMove_phase, hp]) (by rw [takeMove_txbuf, ht]) (by rw [takeMove_rxq, hq])
  | read hp hsent hq =>
    rw [arrivalsAt_of_call hdue (outstandingCall_of_xchRx hp)]
    rw [step_of_busy hdue (by rw [hp]; nofun), phaseStep_of_xchRx hp] at hs
    cases hs
    rcases xchRx_cases Config.owbt s with ⟨-, he, -⟩ | ⟨_, -, he⟩ | ⟨_, -, -, -, he⟩ | ⟨-, he, -⟩ <;> rw [he] at hr ⊢
    · exact .decode rfl (by simpa using hsent) (by simp [hq]) (by simp [hq])
    · simp at hr
    · simp at hr
    · exact .read (by rw [takeMove_phase, hp]) (by simpa using hsent) (by rw [takeMove_rxq, hq])
  | decode hp =>
    rw [step_decode hdue hp] at hs
    cases hs
    simp at hr

/-- In a run that has presented nothing, after the command was taken the exchange is under way. -/
theorem exchanging_of_run {w : CommandWord} {rest : List CommandWord} {i : Instr} (hp : s.phase = .idle)
    (hq : s.rxq = []) (hin : ∀ k, .blockReset k ∉ s.inputs) (ho : s.offers = w :: rest) (hd : decode w = .ok i)
    (hi : i = .writeReadByte b ∨ i = .readByte ∧ b = 0xFF) :
    ∀ {n : Nat} {t : State}, run (n + 1) s = .next t → t.responses = s.responses →
      Exchanging b t (pathSent (path (n + 1) s)) (pathArrivals (path (n + 1) s)) ∧ ∀ k, .blockReset k ∉ t.inputs := by
  intro n
  induction n with
  | zero =>
    intro t h hr
    obtain ⟨m, hm, hstep⟩ := run_succ_last h
    cases hm
    refine ⟨?_, fun k hk => hin k (step_inputs_subset hstep hk)⟩
    rw [path_succ_last 0 rfl, pathSent_append_singleton, pathArrivals_append_singleton]
    exact exchanging_of_accept hp hq (resetDue_of_not_mem hin) ho hd hi hstep
  | succ n ih =>
    intro t h hr
    obtain ⟨m, hm, hstep⟩ := run_succ_last h
    have hext := step_responses_extend hstep
    have hmr : m.responses = s.responses := by
      rw [hr] at hext
      exact hext.eq_of_length_le (run_responses_extend hm).length_le
    obtain ⟨hex, hmin⟩ := ih hm hmr
    refine ⟨?_, fun k hk => hmin k (step_inputs_subset hstep hk)⟩
    rw [path_succ_last _ hm, pathSent_append_singleton, pathArrivals_append_singleton]
    exact hex.step (resetDue_of_not_mem hmin) hstep (hr.trans hmr.symm)

/-! ### Its premises and its answer -/

theorem sentAt_of_xchRx (hdue : resetDue s = false) (hp : s.phase = .xchRx) : sentAt s = [] := by
  have hc : outstandingCall Config.owbt s = some (.memRead slots) := outstandingCall_of_xchRx hp
  rcases sentAt_of_move (takesMove_of_call hdue hc) with ⟨v, hv, -⟩ | ⟨-, h⟩
  · rw [hc] at hv
    nomatch hv
  · exact h

theorem echo_length {p : List State} (h : echo p = true) : (pathArrivals p).length = (pathSent p).length := by
  rw [echo, Bool.and_eq_true, beq_iff_eq] at h
  exact h.2

theorem length_of_chars {sent : List SentChar} (hs : sent.map SentChar.char = (encByte Config.owbt b).toList) :
    sent.length = 8 := by
  rw [← List.length_map (f := SentChar.char), hs, Vector.length_toList]

/-- With every character echoed the eight bytes of the read are there. -/
theorem step_of_echoed {sent : List SentChar} {got : List Byte} (h : Exchanging b s sent got)
    (hdue : resetDue s = false) (hp : s.phase = .xchRx)
    (hecho : (got ++ arrivalsAt s).length = (sent ++ sentAt s).length)
    (hm : ∀ k, (nextMove s).readExact ≠ .fail k) : ∃ u, step s = .next u ∧ u.phase = .xchDecode := by
  cases h with
  | read _ hs hq =>
    rw [sentAt_of_xchRx hdue hp, List.append_nil, length_of_chars hs, ← hq,
      arrivalsAt_of_call hdue (outstandingCall_of_xchRx hp), ← takeMove_rxq] at hecho
    exact ⟨_, step_phase hdue (by rw [hp]; nofun) (phaseStep_of_received hp hm hecho.ge), rfl⟩
  | encode hx | write hx | decode hx => rw [hp] at hx; nomatch hx

/-- Under the wire law readback `k` of an exchange of `b` is 0xFF only where bit `k` was sent as 1. -/
theorem decSlot_of_wireLaw {sent : List SentChar} {got : List Byte} {k : Nat} {r : Byte}
    (hs : sent.map SentChar.char = (encByte Config.owbt b).toList) (hk : k < 8) (hr : got[k]? = some r)
    (hlaw : (sent.zip got).all (fun x => wireAnd x.1.char x.2) = true) : (r == 0xFF) = (b.getLsbD k && r == 0xFF) := by
  obtain ⟨hkg, rfl⟩ := List.getElem?_eq_some_iff.1 hr
  have hks : k < sent.length := by rw [length_of_chars hs]; exact hk
  have hmem : (sent[k], got[k]) ∈ sent.zip got := by
    rw [← List.getElem_zip (h := by rw [List.length_zip]; omega)]
    exact List.getElem_mem _
  have hchar : sent[k].char = encBit Config.owbt (b.getLsbD k) := by
    rw [← List.getElem_map SentChar.char (h := by rwa [List.length_map]), ← getElem_encByte _ b k hk,
      ← Vector.getElem_toList (h := by rwa [Vector.length_toList])]
    exact List.getElem_of_eq hs _
  have hwire := List.all_eq_true.1 hlaw _ hmem
  rw [hchar] at hwire
  exact decSlot_of_wireAnd hwire

theorem charsOf_toList_encByte (c : Cfg) (b : Byte) : charsOf ((encByte c b).toList.take 8) = encByte c b := rfl

/-- Under both premises the step of the decoding phase answers the bits of `b` whose readback is 0xFF. -/
theorem step_of_decoded {sent : List SentChar} {got : List Byte} (h : Exchanging b s sent got)
    (hdue : resetDue s = false) (hp : s.phase = .xchDecode) (hlen : got.length = sent.length)
    (hlaw : (sent.zip got).all (fun x => wireAnd x.1.char x.2) = true) :
    sent.map SentChar.char = (encByte Config.owbt b).toList ∧
      ∃ u d, step s = .next u ∧ u.phase = .idle ∧ u.rxq = [] ∧ u.response = some (responseWord .ok false d) ∧
        (∀ k : Nat, k < 8 → ∃ r, got[k]? = some r ∧ d.getLsbD k = (b.getLsbD k && r == 0xFF)) ∧
        (got = (encByte Config.owbt b).toList → d = b) := by
  cases h with
  | decode _ hs hb hq =>
    have hlen8 : got.length = 8 := hlen.trans (length_of_chars hs)
    have hq' : s.rxq = [] := hq.trans (List.drop_eq_nil_of_le hlen8.le)
    refine ⟨hs, _, _, step_decode hdue hp, rfl, hq', rfl, fun k hk => ?_, ?_⟩
    · have hr : got[k]? = some (got[k]'(by omega)) := List.getElem?_eq_getElem _
      rw [hb]
      exact ⟨_, hr, (getLsbD_decByte_charsOf hk hr).trans (decSlot_of_wireLaw hs hk hr hlaw)⟩
    · rintro rfl
      rw [hb, charsOf_toList_encByte, decByte_encByte_owbt]
  | encode hx | write hx | read hx => rw [hp] at hx; nomatch hx

/-- Settles O57: the invariant of the run, at the readback and at the decoding. -/
theorem echoedExchange : Obligations.EchoedExchange := by
  intro n s t w rest i b hp hq hin ho hd hi hrun hresp
  cases n with
  | zero =>
    cases hrun
    exact ⟨fun h => absurd (hp.symm.trans h) (by decide), fun h => absurd (hp.symm.trans h) (by decide)⟩
  | succ n =>
    obtain ⟨hex, htin⟩ := exchanging_of_run hp hq hin ho hd hi hrun hresp
    have hdue := resetDue_of_not_mem htin
    refine ⟨fun htp hecho hm => ?_, fun htp hecho hlaw => ?_⟩
    · have hlen := echo_length hecho
      rw [path_succ_last _ hrun, pathSent_append_singleton, pathArrivals_append_singleton] at hlen
      exact step_of_echoed hex hdue htp hlen hm
    · exact step_of_decoded hex hdue htp (echo_length hecho) hlaw

end Sys2Proof.Machine
end

section
/-! SUPPORT. Reading the lines of a command script (30_encoding.md section 5): digits, literals, comments and words. -/

namespace Sys2Proof.Machine

/-! ### Digits -/

theorem digitValue_lt_sixteen {ch : Char} {d : Nat} (h : digitValue ch = some d) : d < 16 := by
  unfold digitValue at h
  split_ifs at h with hdec hupper hlower <;> cases h
  · have : ch.toNat ≤ 57 := hdec.2
    exact (by omega : ch.toNat - 48 < 16)
  · have : ch.toNat ≤ 70 := hupper.2
    exact (by omega : ch.toNat - 65 + 10 < 16)
  · have : ch.toNat ≤ 102 := hlower.2
    exact (by omega : ch.toNat - 97 + 10 < 16)

theorem digitValue_of_isDigit {ch : Char} (h : ch.isDigit = true) : digitValue ch = some (ch.toNat - '0'.toNat) :=
  if_pos (Char.isDigit_iff_toNat.1 h)

theorem toNat_sub_zero_lt_ten {ch : Char} (h : ch.isDigit = true) : ch.toNat - '0'.toNat < 10 := by
  have : ch.toNat ≤ 57 := (Char.isDigit_iff_toNat.1 h).2
  exact (by omega : ch.toNat - 48 < 10)

theorem digitValue_bit (b : Bool) : digitValue (if b then '1' else '0') = some b.toNat := by
  cases b <;> decide

/-- A character that may stand in a literal. -/
abbrev IsLiteralChar (ch : Char) : Prop := ch ≠ ' ' ∧ ch ≠ ';'

theorem isLiteralChar_of_digitValue {ch : Char} {d : Nat} (h : digitValue ch = some d) : IsLiteralChar ch := by
  constructor
  · rintro rfl
    nomatch (show digitValue ' ' = none by decide).symm.trans h
  · rintro rfl
    nomatch (show digitValue ';' = none by decide).symm.trans h

/-! ### Runs of digits -/

/-- One digit is read, and the rest with it as the accumulated value. -/
theorem readDigits_cons {base acc d : Nat} {ch : Char} {rest : List Char} (hd : digitValue ch = some d)
    (hlt : d < base) (hrest : rest ≠ []) :
    readDigits base acc (ch :: rest) = readDigits base (acc * base + d) rest := by
  cases rest with
  | nil => exact absurd rfl hrest
  | cons => simp [readDigits, hd, hlt]

theorem readDigits_last {base acc d : Nat} {ch : Char} (hd : digitValue ch = some d) (hlt : d < base) :
    readDigits base acc [ch] = some (acc * base + d) := by
  simp [readDigits, hd, hlt]

theorem chars_of_readDigits {base n : Nat} : ∀ {text : List Char} {acc : Nat}, readDigits base acc text = some n →
    text ≠ [] ∧ ∀ ch ∈ text, IsLiteralChar ch := by
  intro text
  induction text with
  | nil => intro acc h; nomatch h
  | cons ch rest ih =>
    intro acc h
    refine ⟨List.cons_ne_nil _ _, ?_⟩
    cases hd : digitValue ch with
    | none => cases rest <;> simp [readDigits, hd] at h
    | some d =>
      have hch := isLiteralChar_of_digitValue hd
      by_cases hrest : rest = []
      · subst hrest
        simpa using hch
      · by_cases hlt : d < base
        · rw [readDigits_cons hd hlt hrest] at h
          exact List.forall_mem_cons.2 ⟨hch, (ih h).2⟩
        · cases rest <;> simp [readDigits, hd, hlt] at h

theorem readDigits_bits : ∀ {bits : List Bool} (acc : Nat), bits ≠ [] →
    readDigits 2 acc (bits.map fun b => if b then '1' else '0') =
      some (bits.foldl (fun acc b => 2 * acc + b.toNat) acc) := by
  intro bits
  induction bits with
  | nil => intro acc h; exact absurd rfl h
  | cons b rest ih =>
    intro acc _
    have hb := digitValue_bit b
    have hlt : b.toNat < 2 := Bool.toNat_lt b
    rw [List.map_cons, List.foldl_cons, Nat.mul_comm 2 acc]
    by_cases hrest : rest = []
    · subst hrest
      exact readDigits_last hb hlt
    · rw [readDigits_cons hb hlt (by simpa using hrest)]
      exact ih _ hrest

theorem readDigits_decimal : ∀ {text : List Char} (acc : Nat), text ≠ [] → (∀ ch ∈ text, ch.isDigit = true) →
    readDigits 10 acc text = some (Nat.ofDigitChars 10 text acc) := by
  intro text
  induction text with
  | nil => intro acc h; exact absurd rfl h
  | cons ch rest ih =>
    intro acc _ h
    obtain ⟨hch, hdigits⟩ := List.forall_mem_cons.1 h
    have hd := digitValue_of_isDigit hch
    have hlt := toNat_sub_zero_lt_ten hch
    rw [Nat.ofDigitChars_cons, Nat.mul_comm 10 acc]
    by_cases hrest : rest = []
    · subst hrest
      exact readDigits_last hd hlt
    · rw [readDigits_cons hd hlt hrest]
      exact ih _ hrest hdigits

/-! ### Literals -/

/-- A decimal numeral has no radix letter, so it is read in base ten. -/
theorem readLiteral_toDigits (n : Nat) : readLiteral (Nat.toDigits 10 n) = some n := by
  have hdigit : ∀ ch ∈ Nat.toDigits 10 n, ch.isDigit = true :=
    fun ch hch => Nat.isDigit_of_mem_toDigits (by decide) (by decide) hch
  have hdec : readLiteral (Nat.toDigits 10 n) = readDigits 10 0 (Nat.toDigits 10 n) := by
    unfold readLiteral
    split
    · rename_i heq
      simp [heq] at hdigit
    · rename_i heq
      simp [heq] at hdigit
    · rfl
  rw [hdec, readDigits_decimal 0 Nat.toDigits_ne_nil hdigit, Nat.ofDigitChars_ten_toDigits]

theorem readLiteral_hex {d e : Char} {x y : Nat} (hd : digitValue d = some x) (he : digitValue e = some y) :
    readLiteral ['0', 'x', d, e] = some (16 * x + y) := by
  calc readDigits 16 0 [d, e] = readDigits 16 (0 * 16 + x) [e] :=
        readDigits_cons hd (digitValue_lt_sixteen hd) (List.cons_ne_nil _ _)
    _ = some ((0 * 16 + x) * 16 + y) := readDigits_last he (digitValue_lt_sixteen he)
    _ = some (16 * x + y) := by congr 1; omega

theorem chars_of_readLiteral {text : List Char} {n : Nat} (h : readLiteral text = some n) :
    text ≠ [] ∧ ∀ ch ∈ text, IsLiteralChar ch := by
  have h0 : IsLiteralChar '0' := by decide
  unfold readLiteral at h
  split at h
  · exact ⟨List.cons_ne_nil _ _,
      List.forall_mem_cons.2 ⟨h0, List.forall_mem_cons.2 ⟨by decide, (chars_of_readDigits h).2⟩⟩⟩
  · exact ⟨List.cons_ne_nil _ _,
      List.forall_mem_cons.2 ⟨h0, List.forall_mem_cons.2 ⟨by decide, (chars_of_readDigits h).2⟩⟩⟩
  · exact chars_of_readDigits h

/-! ### Comments and words -/

theorem stripComment_append_comment (c : List Char) : ∀ text : List Char,
    stripComment (text ++ ';' :: c) = stripComment text := by
  intro text
  induction text with
  | nil => rfl
  | cons ch rest ih =>
    by_cases hch : ch = ';'
    · simp [stripComment, hch]
    · simpa [stripComment, hch] using ih

theorem stripComment_of_no_semicolon {text : List Char} (h : ∀ ch ∈ text, ch ≠ ';') : stripComment text = text := by
  simpa [stripComment] using h

theorem wordsOf_space (text : List Char) : wordsOf (' ' :: text) = [] :: wordsOf text := rfl

theorem wordsOf_singleton {ch : Char} (hch : ch ≠ ' ') : wordsOf [ch] = [[ch]] := by
  rw [wordsOf]
  · rfl
  · exact hch

/-- A character other than a space goes to the first word. -/
theorem wordsOf_cons {ch : Char} {text w : List Char} {ws : List (List Char)} (hch : ch ≠ ' ')
    (h : wordsOf text = w :: ws) : wordsOf (ch :: text) = (ch :: w) :: ws := by
  rw [wordsOf]
  · rw [h]
  · exact hch

theorem wordsOf_append_space (text : List Char) : ∀ {w : List Char}, (∀ ch ∈ w, ch ≠ ' ') →
    wordsOf (w ++ ' ' :: text) = w :: wordsOf text := by
  intro w
  induction w with
  | nil => intro _; rfl
  | cons ch w ih =>
    intro h
    obtain ⟨hch, hw⟩ := List.forall_mem_cons.1 h
    exact wordsOf_cons hch (ih hw)

theorem wordsOf_word : ∀ {w : List Char}, w ≠ [] → (∀ ch ∈ w, ch ≠ ' ') → wordsOf w = [w] := by
  intro w
  induction w with
  | nil => intro h; exact absurd rfl h
  | cons ch w ih =>
    intro _ h
    obtain ⟨hch, hw⟩ := List.forall_mem_cons.1 h
    by_cases hnil : w = []
    · subst hnil
      exact wordsOf_singleton hch
    · exact wordsOf_cons hch (ih hnil hw)

/-! ### Lines -/

theorem readLine_append_comment (text c : List Char) : readLine (text ++ ';' :: c) = readLine text := by
  rw [readLine, stripComment_append_comment, ← readLine]

theorem readLine_space (text : List Char) : readLine (' ' :: text) = readLine text := by
  have hstrip : stripComment (' ' :: text) = ' ' :: stripComment text := rfl
  rw [readLine, hstrip, wordsOf_space, List.filter_cons_of_neg (by decide), ← readLine]

theorem readLine_writeReadByte {text : List Char} {n : Nat} (h : readLiteral text = some n) :
    readLine ("WRITE_READ_BYTE ".toList ++ text) = if n < 256 then .command (.writeReadByte n) else .malformed := by
  obtain ⟨hne, hchars⟩ := chars_of_readLiteral h
  have hstrip : stripComment ("WRITE_READ_BYTE ".toList ++ text) = "WRITE_READ_BYTE".toList ++ ' ' :: text :=
    stripComment_of_no_semicolon (List.forall_mem_append.2 ⟨by simp, fun ch hch => (hchars ch hch).2⟩)
  have hwords : wordsOf ("WRITE_READ_BYTE".toList ++ ' ' :: text) = ["WRITE_READ_BYTE".toList, text] := by
    rw [wordsOf_append_space text (by simp), wordsOf_word hne fun ch hch => (hchars ch hch).1]
  have hfilter : ["WRITE_READ_BYTE".toList, text].filter (· ≠ []) = ["WRITE_READ_BYTE".toList, text] := by
    simp [hne]
  rw [readLine, hstrip, hwords, hfilter]
  simp [h]

theorem wellFormed_of_readLine {text : List Char} {l : ScriptLine} (h : readLine text = .command l) :
    l.wellFormed = true := by
  unfold readLine at h
  split at h
  · nomatch h
  · split_ifs at h <;> cases h <;> rfl
  · split_ifs at h
    split at h
    · split_ifs at h with hn
      cases h
      exact decide_eq_true hn
    · nomatch h
  · nomatch h

/-- Settles O5, clause by clause. -/
theorem scriptLinesRead : Obligations.ScriptLinesRead :=
  ⟨readLine_append_comment, readLine_space, by decide, by decide, fun _ _ => readLine_writeReadByte,
    fun _ _ => wellFormed_of_readLine, rfl, rfl, fun _ _ _ _ => readLiteral_hex,
    fun _ => readDigits_bits 0, fun n _ => readLiteral_toDigits n⟩

end Sys2Proof.Machine
end
